-- ==== Sys2Proof/Word.lean ====
section
/-!
DEFINITION. The number types of the SV-4 and their plainest arithmetic (spec/00_scope.md section 0.5):
bytes, 32-bit numbers that wrap, the 48-bit belt position and its modular comparison.
-/

namespace Sys2Proof

/-- One byte of a frame of the tally link (R193). -/
abbrev Byte := BitVec 8

/-- A 32-bit number that wraps: line, hide and pack numbers, generation, uptime, exhaustion count (section 0.5). -/
abbrev Word32 := BitVec 32

/-- A belt position: a 48-bit count of pulses, wrapping modulo 2^48 (R4). -/
abbrev Position := BitVec 48

/-- The modular difference a - b read as a signed number in -2^47 .. 2^47 - 1 (R4, section 0.5). -/
def posDiff (a b : Position) : Int := (a - b).toInt

/-- a is ahead of b when their modular difference is positive (R4). -/
def ahead (a b : Position) : Bool := 0 < posDiff a b

/-- How far the 32-bit number x lies behind the present number now, modulo 2^32 (R52, R53, R56, R91). -/
def behind (now x : Word32) : Nat := (now - x).toNat

end Sys2Proof
end

