-- ==== Sys2Proof/Syntax.lean ====
section
/-!
DEFINITION. The commands of the SV-4: one constructor per row of spec/opcode_table.json, in the table's order.
The table gives its rows no operands, so the operands are those the rules give each command or event (log 3).
-/

namespace Sys2Proof

/-- The two ports of the tally link (R193). -/
inductive Port where
  | upstream
  | downstream
  deriving DecidableEq, Repr

inductive Instr where
  /-- POWER_ON (R18, R186): power is applied. -/
  | powerOn
  /-- RESET_PIN (R18, R192): the reset pin is taken low and released. -/
  | resetPin
  /-- POWER_LOSS (R185): power is lost. -/
  | powerLoss
  /-- END_OF_INIT (R186): INIT ends with encoder levels a and b, the strap as fitted or open, and the eight raw input levels. -/
  | endOfInit (a b strapFitted : Bool) (inputs : BitVec 8)
  /-- ENCODER_EDGE (R1): a new sample of the levels of encoder channels A and B. -/
  | encoderEdge (a b : Bool)
  /-- FREE_RUN_PULSE (R2): the free-run source gives one pulse. -/
  | freeRunPulse
  /-- TICK (R15): the millisecond tick. -/
  | tick
  /-- PAUSE_RETIREMENT_EXPIRY (R14). -/
  | pauseRetirementExpiry
  /-- LINE_FRAME (R22, R198): a good LINE frame on the upstream port, with its source byte and payload. -/
  | lineFrame (source : Byte) (payload : List Byte)
  /-- BAR_REPLY_FRAME (R198): a good frame of another kind on the upstream port. -/
  | barReplyFrame (kind source : Byte) (payload : List Byte)
  /-- BAR_FORWARD_FRAME (R196, R197): a good frame on the downstream port with target BAR. -/
  | barForwardFrame (kind : Byte) (payload : List Byte)
  /-- BAD_TARGET_FRAME (R196): a good frame on the downstream port whose target is neither PART nor BAR. -/
  | badTargetFrame (target kind : Byte) (payload : List Byte)
  /-- DISCARDED_FRAME (R195): bytes of a frame that is not good, as they arrive on a port, start delimiter included. -/
  | discardedFrame (port : Port) (bytes : List Byte)
  /-- FRAME_TIMEOUT_EXPIRY (R195): a receiver's frame time-out expires. -/
  | frameTimeoutExpiry (port : Port)
  /-- LOAD_PART (R200): a good LOAD frame with target PART, with its whole payload. -/
  | loadPart (payload : List Byte)
  /-- LOAD_PART_TIMEOUT (R200). -/
  | loadPartTimeout
  /-- DOWNSTREAM_FRAME_END (R203). -/
  | downstreamFrameEnd
  /-- UPSTREAM_FRAME_END (R197). -/
  | upstreamFrameEnd
  /-- LINE_OPERATION (R47). -/
  | lineOperation
  /-- FILL (R48). -/
  | fill
  /-- OFFER_WALK (R65). -/
  | offerWalk
  /-- SET_TIME_EXPIRY (R123) of a head, with the readback word its chain shifts in. -/
  | setTimeExpiry (head : Fin 4) (readback : Word32)
  /-- STRIKE_TIME_EXPIRY (R129) of a head. -/
  | strikeTimeExpiry (head : Fin 4)
  /-- RECOVER_TIME_EXPIRY (R130) of a head. -/
  | recoverTimeExpiry (head : Fin 4)
  /-- INPUT_SAMPLE (R169): the input stage samples a line input; true is HIGH. -/
  | inputSample (input : Fin 8) (level : Bool)
  /-- DEBOUNCE_EXPIRY (R169) of an input. -/
  | debounceExpiry (input : Fin 8)
  /-- SEAL_WRITE_COMPLETE (R183). -/
  | sealWriteComplete
  /-- COMMIT_TIMER_EXPIRY (R184). -/
  | commitTimerExpiry
  /-- QUERY (R224). -/
  | query
  /-- START (R159). -/
  | start
  /-- STOP (R160). -/
  | stop
  /-- ACK_FAULT (R164). -/
  | ackFault
  /-- FLUSH (R214). -/
  | flush
  /-- FLUSH_SERVICE (R216). -/
  | flushService
  /-- LINE_RESET (R214). -/
  | lineReset
  /-- LINE_RESET_SERVICE (R166). -/
  | lineResetService
  /-- READ_REGIONS (R214). -/
  | readRegions (segment : Byte)
  /-- READ_REGIONS_SERVICE (R69). -/
  | readRegionsService
  /-- LOAD_WIDTHS (R180): a whole LOAD message naming WIDTHS reaches the request decoder. -/
  | loadWidths (segment : Byte) (data : List Byte)
  /-- LOAD_MASK (R180). -/
  | loadMask (segment : Byte) (data : List Byte)
  /-- LOAD_CONDITIONING (R180). -/
  | loadConditioning (segment : Byte) (data : List Byte)
  /-- LOAD_TERMS (R106). -/
  | loadTerms (segment : Byte) (data : List Byte)
  /-- LOAD_HEADS (R113). -/
  | loadHeads (segment : Byte) (data : List Byte)
  /-- LOAD_INPUTS (R168). -/
  | loadInputs (segment : Byte) (data : List Byte)
  /-- LOAD_BAD_TABLE (R218). -/
  | loadBadTable (table segment : Byte) (data : List Byte)
  /-- COMMIT_CAL (R181, R182) with the check sum it carries. -/
  | commitCal (checkSum : Word32)
  /-- READ_WIDTHS (R191). -/
  | readWidths (segment : Byte)
  /-- READ_MASK (R191). -/
  | readMask (segment : Byte)
  /-- READ_CONDITIONING (R191). -/
  | readConditioning (segment : Byte)
  /-- READ_TERMS (R110). -/
  | readTerms (segment : Byte)
  /-- READ_HEADS (R114). -/
  | readHeads (segment : Byte)
  /-- READ_INPUTS (R168). -/
  | readInputs (segment : Byte)
  /-- READ_RECORDS (R94). -/
  | readRecords (segment : Byte)
  /-- READ_QUEUES (R140). -/
  | readQueues (segment : Byte)
  /-- READ_BAD_AREA (R219). -/
  | readBadArea (area segment : Byte)
  /-- SET_FLAGS_CONTROL (R222): the selector byte is 0, or one that names no word. -/
  | setFlagsControl (selector : Byte) (mask : Word32)
  /-- CLEAR_FLAGS_CONTROL (R222): the selector byte is 0, or one that names no word. -/
  | clearFlagsControl (selector : Byte) (mask : Word32)
  /-- SET_FLAGS_EVENT_MASK (R223). -/
  | setFlagsEventMask (mask : Word32)
  /-- CLEAR_FLAGS_EVENT_MASK (R223). -/
  | clearFlagsEventMask (mask : Word32)
  /-- HEAD_ENABLE_OFF (R134): the on byte is 0. -/
  | headEnableOff (head : Byte)
  /-- HEAD_ENABLE_ON (R135): the on byte is 1, or one out of range. -/
  | headEnableOn (head on : Byte)
  /-- CLEAR_STALL (R126). -/
  | clearStall (head : Byte)
  /-- CLOSE_PACK (R149). -/
  | closePack (slot : Byte)
  /-- LOCK_NEXT (R188). -/
  | lockNext
  /-- CLEAR_COUNTERS (R225). -/
  | clearCounters
  /-- UNKNOWN_REQUEST (R212): a message of unknown kind, or of the wrong length for its kind. -/
  | unknownRequest (kind : Byte) (message : List Byte)
  deriving DecidableEq, Repr

end Sys2Proof
end

