-- ==== Sys2Proof/Config.lean ====
section
/-!
DEFINITION. The free values of the SV-4 model: constants without a body, which nothing can evaluate.
Each stands for a value or an order that the manual leaves open. The log entry that declares each is named beside it.
-/

namespace Sys2Proof

/-- The fixed-place fields of a reply whose item can be absent or stopped and for which no rule
states the value then sent (R206 states it for one-byte indexes, positions and anchors only). -/
inductive AbsentField where
  /-- line number of outstanding entry k of the QUERY status block (R17) -/
  | outstandingLine (k : Nat)
  /-- previous line number of the QUERY status block (R68) -/
  | previousLine
  /-- front hide number of a head whose queue is empty (R139) -/
  | frontHide (head : Nat)
  /-- open pack number of an EMPTY accumulator (R152) -/
  | openNumber (slot : Nat)
  /-- hide count of an EMPTY accumulator (R152) -/
  | openCount (slot : Nat)
  /-- target of an EMPTY accumulator (R152) -/
  | openTarget (slot : Nat)
  /-- held pack number of an EMPTY close buffer (R152) -/
  | heldNumber (slot : Nat)
  /-- held hide count of an EMPTY close buffer (R152) -/
  | heldCount (slot : Nat)
  /-- held flags of an EMPTY close buffer (R152) -/
  | heldFlags (slot : Nat)
  /-- last shift word that is absent (R140) -/
  | lastShift
  /-- last readback that is absent (R140) -/
  | lastReadback
  /-- milliseconds of a debounce timer that is stopped (R175) -/
  | debounceMs (input : Nat)
  /-- milliseconds of the commit timer while IDLE_CAL (R190) -/
  | commitMs
  deriving DecidableEq, Repr

/-- FREE (log 6): the order in which heads act on one event that reaches several of them (R127, R138: no order holds).
The head with the lower rank acts first; the first argument is the draw counter of the state. -/
opaque Config.headRank : Nat → Nat → Nat

/-- FREE (log 7): whether the erase of a commit has reached a word of the set area by the end of the present millisecond (R182,
stage 1: no order of the words, and no time, is stated). The arguments are the draw counter and the position. -/
opaque Config.wordErased : Nat → Nat → Bool

/-- FREE (log 7): whether the erase of a commit ends within the present millisecond (R182, stage 1). -/
opaque Config.eraseEnds : Nat → Bool

/-- FREE (log 7): how many words of the set area a commit has written by the end of the present millisecond (R182, stage 2). -/
opaque Config.wordsWritten : Nat → Nat

/-- FREE (log 24): whether a cut that finds every word written finds the seal written too (R182, stage 3; R185). -/
opaque Config.sealWritten : Nat → Bool

/-- FREE (log 8): whether a time left that lies between two whole milliseconds is shown as the lower of the two (R17, R175, R190: no
rounding stated). The argument is the higher. -/
opaque Config.msLeftRoundsDown : Nat → Bool

/-- FREE (log 9): whether BAD_VALUE names the last cell, not the first, of a zone whose first cell is above its last (R113). -/
opaque Config.zoneOrderNamesLast : Bool

/-- FREE (log 10): what is sent in a field whose item is absent, where no rule states it (R206). -/
opaque Config.absentValue : AbsentField → Nat

/-- FREE (log 11): the overflow fills after a declaration that finds them at 2^32 - 1, the top of their range (R28). -/
opaque Config.overflowPastTop : Nat

end Sys2Proof
end

