-- ==== Sys2Proof/Machine/State.lean ====
section
/-!
DEFINITION. The state of the SV-4: every piece of state that spec/ gives its nine blocks and its request decoder,
as plain data, with the values after reset (R18, R39, R70, R95, R141, R153, R176, R192, R205, R226).
-/

namespace Sys2Proof.Machine

/-! ### Time-outs (R16) -/

/-- A running time-out: the whole milliseconds it still has to run, and whether it was started between two ticks and has
not met a tick yet (the first tick then does not count, so that it expires at the (n + 1)-th tick). -/
structure Countdown where
  left : Nat
  fresh : Bool
  deriving DecidableEq, Repr

/-- A time-out: stopped, or running. -/
abbrev Timer := Option Countdown

/-! ### Tables (R97, R98, R112, R167) -/

inductive SaleUnit where
  | ft2
  | dm2
  | m2
  deriving DecidableEq, Repr

inductive Resolution where
  | whole
  | quarter
  | tenth
  | hundredth
  deriving DecidableEq, Repr

inductive Rounding where
  | down
  | nearest
  | up
  deriving DecidableEq, Repr

inductive SuspectMode where
  | skip
  | stamp
  | stars
  deriving DecidableEq, Repr

/-- One of the eight classes of the trade terms (R98). -/
structure TermClass where
  low : Nat
  high : Nat
  face : Nat
  force : Nat
  pack : Option (Fin 4)
  target : Nat
  deriving DecidableEq, Repr

/-- The TERMS table (R97). -/
structure Terms where
  unit : SaleUnit
  resolution : Resolution
  rounding : Rounding
  minHide : Nat
  smallHole : Nat
  interpolation : Nat
  setback : Nat
  minAnchor : Nat
  suspect : SuspectMode
  classes : List TermClass
  deriving DecidableEq, Repr

/-- One entry of the HEADS table (R112). -/
structure HeadEntry where
  enable : Bool
  zoneFirst : Nat
  zoneLast : Nat
  offset : Nat
  leadMargin : Nat
  spacing : Nat
  setTime : Nat
  strikeTime : Nat
  recoverTime : Nat
  deriving DecidableEq, Repr

inductive InputFunction where
  | unused
  | beltRun
  | estop
  | event
  deriving DecidableEq, Repr

/-- One entry of the INPUTS table (R167). -/
structure InputEntry where
  function : InputFunction
  activeLow : Bool
  levelMode : Bool
  enable : Bool
  debounce : Nat
  deriving DecidableEq, Repr

/-! ### Belt position unit (chapter 1) -/

inductive Direction where
  | forward
  | reverse
  deriving DecidableEq, Repr

/-- A line triggered and not yet received or retired (R11). -/
structure Outstanding where
  line : Word32
  pos : Position
  deriving DecidableEq, Repr

/-- The BPU (chapter 1). The pulse source is the FREE_RUN flag of the control word (R3). -/
structure Bpu where
  position : Position
  direction : Direction
  mark : Position
  divider : Nat
  nextLine : Word32
  outstanding : List Outstanding
  pauseTimer : Timer
  uptime : Word32
  /-- encoder reference levels (R1) -/
  encA : Bool
  encB : Bool
  /-- pulses the free-run source still gives in the present millisecond (R2) -/
  freeRunLeft : Nat
  /-- level of the trigger line (R10, R18) -/
  triggerLine : Bool
  deriving DecidableEq, Repr

/-! ### Line conditioner (chapter 2) -/

inductive BarStatus where
  | clean
  | dusty
  | lampLow
  deriving DecidableEq, Repr

/-- A conditioned run with its width in µm (R34). -/
structure Run where
  first : Nat
  last : Nat
  width : Nat
  deriving DecidableEq, Repr

/-- What a line queue entry carries beside its number (R26). -/
inductive EntryContent where
  | line (status : BarStatus) (runs : List Run)
  | fill
  deriving DecidableEq, Repr

/-- An entry of the line queue (R26). -/
structure QueueEntry where
  content : EntryContent
  line : Word32
  pos : Position
  fillsBefore : Nat
  deriving DecidableEq, Repr

/-- The LCN (chapter 2); its active tables are the active set of the CCU. -/
structure Lcn where
  expected : Word32
  trailing : Nat
  overflow : Nat
  lastDeclared : Outstanding
  queue : List QueueEntry
  lastStatus : Option BarStatus
  missed : Nat
  stray : Nat
  malformed : Nat
  deriving DecidableEq, Repr

/-! ### Region tracker (chapter 3) -/

inductive RegionKind where
  | leather
  | gap
  deriving DecidableEq, Repr

inductive RegionState where
  | free
  | opened
  | merged
  | closedWait
  deriving DecidableEq, Repr

/-- The label of a run or gap (R46). -/
inductive Label where
  | untracked
  | entry (index : Nat)
  deriving DecidableEq, Repr

/-- A hole recorded against a leather region (R42, R61). -/
structure Hole where
  area : Nat
  line : Word32
  deriving DecidableEq, Repr

/-- An anchor, or an entry of an anchor ring (R42, R56). -/
structure Anchor where
  line : Word32
  width : Nat
  cell : Nat
  pos : Position
  deriving DecidableEq, Repr

structure RegionFlags where
  exhausted : Bool
  edge : Bool
  holeOverflow : Bool
  truncated : Bool
  overrange : Bool
  deriving DecidableEq, Repr

/-- An entry of the open-region table (R41, R42, R43). -/
structure Region where
  kind : RegionKind
  state : RegionState
  parent : Nat
  firstLine : Word32
  lastLine : Word32
  minCell : Nat
  maxCell : Nat
  area : Nat
  born : Position
  epoch : Word32
  touched : Bool
  holes : List Hole
  holeOverSum : Nat
  holeOverCount : Nat
  interpolated : Nat
  flags : RegionFlags
  ring : List Anchor
  anchor : Option Anchor
  openTop : Bool
  deriving DecidableEq, Repr

/-- A run or gap of a line list with its label (R46). -/
structure Span where
  first : Nat
  last : Nat
  width : Nat
  label : Label
  deriving DecidableEq, Repr

structure LineList where
  runs : List Span
  gaps : List Span
  deriving DecidableEq, Repr

/-- A request that waits for the tracker to be between lines (R47, R214). -/
inductive Waiting where
  | flush
  | lineReset
  | readRegions (segment : Byte)
  deriving DecidableEq, Repr

/-- The queue entry the tracker is performing, and how many of its replays are done (R47, R48). -/
structure Work where
  entry : QueueEntry
  done : Nat
  deriving DecidableEq, Repr

/-- The RTK (chapter 3). -/
structure Rtk where
  table : List Region
  stack : List Nat
  prev : LineList
  prevLine : Option Outstanding
  cur : LineList
  exhaustion : Word32
  retryPending : Bool
  linesProcessed : Nat
  waiting : List Waiting
  work : Option Work
  deriving DecidableEq, Repr

/-! ### Hide evaluator (chapter 4) -/

inductive Disposition where
  | pending
  | stamped
  | skippedPolicy
  | skippedNoAnchor
  | skippedNoHead
  | skippedHeadOff
  | skippedCrowded
  | skippedOrder
  | skippedTooLate
  | missedLate
  | missedStalled
  | verifyFail
  | strikeAborted
  | cancelled
  deriving DecidableEq, Repr

structure HideFlags where
  exhausted : Bool
  edge : Bool
  interpolated : Bool
  truncated : Bool
  holeOverflow : Bool
  overrange : Bool
  noAnchor : Bool
  deriving DecidableEq, Repr

/-- A hide record (R73). The assigned head and the fire position are both present or both absent, so they are one field. -/
structure HideRecord where
  number : Word32
  firstLine : Word32
  lastLine : Word32
  minCell : Nat
  maxCell : Nat
  born : Position
  measured : Nat
  filled : Nat
  deducted : Nat
  counted : Nat
  smallHoles : Nat
  largeHoles : Nat
  steps : Nat
  unit : SaleUnit
  resolution : Resolution
  generation : Word32
  classIndex : Option Nat
  flags : HideFlags
  anchor : Option Anchor
  assigned : Option (Fin 4 × Position)
  disposition : Disposition
  audit : Nat
  uptime : Word32
  deriving DecidableEq, Repr

/-- The HEV (chapter 4). An EMPTY slot of the store is none. -/
structure Hev where
  terms : Option Terms
  generation : Word32
  nextHide : Word32
  store : List (Option HideRecord)
  scraps : Nat
  discarded : Nat
  deriving DecidableEq, Repr

/-! ### Stamp scheduler and heads (chapter 6) -/

inductive HeadState where
  | disabled
  | idle
  | setting
  | ready
  | striking
  | recovering
  | stalled
  deriving DecidableEq, Repr

/-- The wheel target: six 4-bit codes (R118). -/
structure Wheels where
  face : BitVec 4
  d1 : BitVec 4
  d2 : BitVec 4
  d3 : BitVec 4
  d4 : BitVec 4
  d5 : BitVec 4
  deriving DecidableEq, Repr

/-- An entry of a stamp queue (R115). -/
structure StampEntry where
  hide : Word32
  slot : Nat
  fire : Position
  wheels : Wheels
  force : Nat
  deriving DecidableEq, Repr

structure Head where
  state : HeadState
  queue : List StampEntry
  retryUsed : Bool
  disablePending : Bool
  timer : Timer
  lastShift : Option Word32
  lastReadback : Option Word32
  /-- level of the strike line -/
  strikeHigh : Bool
  deriving DecidableEq, Repr

/-- The STH (chapter 6): the HEADS table and the four heads. -/
structure Sth where
  table : Option (List HeadEntry)
  heads : List Head
  deriving DecidableEq, Repr

/-! ### Pack unit (chapter 7) -/

/-- A FILLING accumulator (R143). -/
structure Pack where
  number : Word32
  hides : Nat
  target : Nat
  steps : Nat
  area : Nat
  unit : SaleUnit
  resolution : Resolution
  generation : Word32
  overrange : Bool
  deriving DecidableEq, Repr

structure CloseFlags where
  short : Bool
  overfull : Bool
  policyChange : Bool
  deriving DecidableEq, Repr

/-- A HELD close buffer (R143, R145). -/
structure ClosedPack where
  pack : Pack
  flags : CloseFlags
  uptime : Word32
  deriving DecidableEq, Repr

structure PackSlot where
  acc : Option Pack
  buf : Option ClosedPack
  deriving DecidableEq, Repr

structure Pku where
  slots : List PackSlot
  nextPack : Word32
  deriving DecidableEq, Repr

/-! ### Line control (chapter 8) -/

inductive LineState where
  | init
  | idle
  | running
  | paused
  | faulted
  deriving DecidableEq, Repr

inductive HaltCause where
  | none
  | stop
  | beltRun
  | estop
  | lineLoss
  deriving DecidableEq, Repr

/-- The control word (R174). -/
structure Control where
  fwdLines : Bool
  autoResume : Bool
  freeRun : Bool
  rate : Nat
  deriving DecidableEq, Repr

/-- A line input as sampled and as filtered; true is HIGH (R169). -/
structure InputLine where
  raw : Bool
  debounced : Bool
  timer : Timer
  deriving DecidableEq, Repr

inductive LatchState where
  | clear
  | pending
  | held
  deriving DecidableEq, Repr

/-- The LCT (chapter 8). The latches and the mask are listed by the latch bits of R206; in the mask, true is MASKED. -/
structure Lct where
  lineState : LineState
  haltCause : HaltCause
  control : Control
  table : List InputEntry
  inputs : List InputLine
  beltRun : Bool
  estop : Bool
  latches : List LatchState
  mask : List Bool
  deriving DecidableEq, Repr

/-! ### Calibration custody (chapter 9) -/

/-- A seal (R177). -/
structure Seal where
  count : Nat
  checkSum : Word32
  deriving DecidableEq, Repr

/-- The two flags of a lock cell that is not blank (R177, R188). -/
structure LockFlags where
  lockNext : Bool
  locked : Bool
  deriving DecidableEq, Repr

/-- The calibration store, non-volatile (R177). A blank word, seal cell or lock cell is none. -/
structure CalStore where
  setArea : List (Option Nat)
  seal0 : Option Seal
  seal1 : Option Seal
  lockCell : Option LockFlags
  deriving DecidableEq, Repr

inductive SegState where
  | same
  | loaded
  | unset
  deriving DecidableEq, Repr

inductive CommitResult where
  | none
  | done
  | failed
  deriving DecidableEq, Repr

/-- How far the store has come with a commit (R182): at rest with none in flight, erasing (stage 1), or writing with the number of
words written (stage 2); once all 3,207 are written, what is left is the seal (stage 3). -/
inductive StoreStage where
  | resting
  | erasing
  | writing (words : Nat)
  deriving DecidableEq, Repr

/-- The CCU (chapter 9). LOCK_NEXT and LOCKED are held in the store's lock cell. -/
structure Ccu where
  store : CalStore
  stage : StoreStage
  active : List (Option Nat)
  valid : Bool
  prefixSums : List Nat
  working : List (Option Nat)
  segments : List SegState
  audit : Nat
  committing : Bool
  commitTimer : Timer
  lastResult : CommitResult
  promotionPending : Bool
  strapFitted : Bool
  deriving DecidableEq, Repr

/-! ### Link interface and request decoder (chapters 10 and 11) -/

/-- A frame of the tally link (R193); its CRC is the one its bytes give (R194). -/
structure Frame where
  kind : Byte
  addr : Byte
  payload : List Byte
  deriving DecidableEq, Repr

/-- A receiver (R195): HUNTING, or RECEIVING with the bytes gathered since the delimiter and its frame time-out. -/
inductive Receiver where
  | hunting
  | receiving (gathered : List Byte) (timeout : Timer)
  deriving DecidableEq, Repr

/-- A reply in the reply FIFO: its whole message and how many of its parts were taken (R201). -/
structure ReplyEntry where
  message : List Byte
  taken : Nat
  deriving DecidableEq, Repr

/-- An OPEN load assembly (R200). -/
structure Assembly where
  next : Nat
  bytes : List Byte
  timeout : Timer
  deriving DecidableEq, Repr

/-- The LNK (chapter 10). A transmitter that is IDLE is none, one that is SENDING holds the frame it sends. -/
structure Lnk where
  upReceiver : Receiver
  downReceiver : Receiver
  upFifo : List Frame
  replyFifo : List ReplyEntry
  reportFifo : List Frame
  forwardFifo : List Frame
  downTx : Option Frame
  upTx : Option Frame
  assembly : Option Assembly
  badFrames : Nat
  forwardDrops : Nat
  upstreamDrops : Nat
  incompleteLoads : Nat
  deriving DecidableEq, Repr

/-- The request decoder (chapter 11). -/
structure Decoder where
  reservations : Nat
  owed : List Byte
  deriving DecidableEq, Repr

/-! ### The device and the machine -/

/-- The SV-4: its blocks, whether it is supplied (R185), and the MODEL'S OWN draw counter of the free values (log 5). -/
structure Device where
  powered : Bool
  bpu : Bpu
  lcn : Lcn
  rtk : Rtk
  hev : Hev
  sth : Sth
  pku : Pku
  lct : Lct
  ccu : Ccu
  lnk : Lnk
  dec : Decoder
  draws : Nat
  deriving DecidableEq, Repr

/-- The machine: the device and the queue of the commands and events that come to it, first in, first out (log 2). -/
structure State where
  dev : Device
  pending : List Instr
  deriving DecidableEq, Repr

/-! ### Reasons to stop -/

/-- No rule of spec/ names a command or an event that stops the part, so no step of the model faults. -/
inductive Fault where
  deriving DecidableEq, Repr

/-- Reasons a command has no meaning. -/
inductive Refusal where
  /-- Raised by a refused arm of exec for a command without a meaning yet; safe. No arm of this model raises it. -/
  | notModelled (mnemonic : String)
  deriving DecidableEq, Repr

/-! ### Values after reset -/

def RegionFlags.clear : RegionFlags := ⟨false, false, false, false, false⟩

/-- A FREE entry with its fields cleared (R41), of the given kind and index. -/
def Region.cleared (kind : RegionKind) (index : Nat) : Region where
  kind := kind
  state := .free
  parent := index
  firstLine := 0
  lastLine := 0
  minCell := 0
  maxCell := 0
  area := 0
  born := 0
  epoch := 0
  touched := false
  holes := []
  holeOverSum := 0
  holeOverCount := 0
  interpolated := 0
  flags := .clear
  ring := []
  anchor := none
  openTop := false

def LineList.empty : LineList := ⟨[], []⟩

/-- The BPU after power-on (R18); the encoder levels before the end of INIT are not stated (log 13). -/
def Bpu.reset : Bpu where
  position := 0
  direction := .forward
  mark := 0
  divider := 4095
  nextLine := 0
  outstanding := []
  pauseTimer := none
  uptime := 0
  encA := false
  encB := false
  freeRunLeft := 0
  triggerLine := false

/-- The LCN after power-on (R39). -/
def Lcn.reset : Lcn := ⟨0, 0, 0, ⟨0, 0⟩, [], none, 0, 0, 0⟩

/-- The RTK after power-on (R70). -/
def Rtk.reset : Rtk where
  table := (List.range 64).map (Region.cleared .leather)
  stack := List.range 64
  prev := .empty
  prevLine := none
  cur := .empty
  exhaustion := 0
  retryPending := false
  linesProcessed := 0
  waiting := []
  work := none

/-- The HEV after power-on (R95). -/
def Hev.reset : Hev := ⟨none, 0, 1, List.replicate 24 none, 0, 0⟩

def Head.reset : Head := ⟨.disabled, [], false, false, none, none, none, false⟩

/-- The STH after power-on (R141). -/
def Sth.reset : Sth := ⟨none, List.replicate 4 Head.reset⟩

/-- The PKU after power-on (R153). -/
def Pku.reset : Pku := ⟨List.replicate 4 ⟨none, none⟩, 1⟩

def InputEntry.reset : InputEntry := ⟨.unused, false, false, false, 0⟩

/-- The LCT after power-on (R176); the levels before the end of INIT are not stated (log 13). -/
def Lct.reset : Lct where
  lineState := .init
  haltCause := .none
  control := ⟨false, false, false, 1⟩
  table := List.replicate 8 InputEntry.reset
  inputs := List.replicate 8 ⟨false, false, none⟩
  beltRun := false
  estop := false
  latches := List.replicate 27 .clear
  mask := List.replicate 27 false

/-- The calibration store as it leaves the factory (R177). -/
def CalStore.factory : CalStore := ⟨List.replicate 3207 none, none, none, none⟩

/-- The CCU after power-on, over the store it finds, before INIT has loaded it (R192).
The active set, working copy, audit counter and strap get their values at the end of INIT; until then log 13 names them. -/
def Ccu.reset (store : CalStore) : Ccu where
  store := store
  stage := .resting
  active := List.replicate 3207 none
  valid := false
  prefixSums := List.replicate 1601 0
  working := List.replicate 3207 none
  segments := List.replicate 16 .unset
  audit := 0
  committing := false
  commitTimer := none
  lastResult := .none
  promotionPending := false
  strapFitted := false

/-- The LNK after power-on (R205). -/
def Lnk.reset : Lnk := ⟨.hunting, .hunting, [], [], [], [], none, none, none, 0, 0, 0, 0⟩

/-- The request decoder after power-on (R226). -/
def Decoder.reset : Decoder := ⟨0, []⟩

/-- The device right after power-on or the reset pin: every block at its power-on values, line state INIT (R156). -/
def Device.reset (store : CalStore) (draws : Nat) : Device where
  powered := true
  bpu := .reset
  lcn := .reset
  rtk := .reset
  hev := .reset
  sth := .reset
  pku := .reset
  lct := .reset
  ccu := .reset store
  lnk := .reset
  dec := .reset
  draws := draws

/-- The machine right after power-on of a part as it leaves the factory, in INIT, with no command waiting. -/
def State.reset : State := ⟨Device.reset CalStore.factory 0, []⟩

end Sys2Proof.Machine
end

