-- ==== Sys2Proof/Machine/Ops.lean ====
section
/-!
DEFINITION. The shared operations that belong to no one block: saturating sums and counters, lists, time-outs (R16),
byte layouts, the CRC and the bytes of a frame (R193 to R195), and the accessors of the device.
-/

namespace Sys2Proof.Machine

/-! ### Saturating arithmetic (section 0.5) -/

def max16 : Nat := 65535
def max64 : Nat := 18446744073709551615

/-- A 16-bit counter raised by n, saturating at 65,535. -/
def sat16 (count n : Nat) : Nat := min (count + n) max16

/-- A 64-bit sum that saturates at 2^64 - 1. -/
def sat64 (a b : Nat) : Nat := min (a + b) max64

/-- Whether a 64-bit sum saturates. -/
def over64 (a b : Nat) : Bool := max64 < a + b

/-! ### Lists -/

/-- The list with the entry at an index changed; an index past the end changes nothing. -/
def updateAt {α : Type} (f : α → α) : Nat → List α → List α
  | _, [] => []
  | 0, a :: l => f a :: l
  | i + 1, a :: l => a :: updateAt f i l

/-- Insert before the first entry that the new one precedes strictly: equal entries stay in front. -/
def insertAfterEqual {α : Type} (before : α → α → Bool) (x : α) : List α → List α
  | [] => [x]
  | a :: l => if before x a then x :: a :: l else a :: insertAfterEqual before x l

/-- Insertion sort that keeps equal entries in their order; before is a strict order. -/
def sortWith {α : Type} (before : α → α → Bool) (l : List α) : List α :=
  l.foldl (fun acc x => insertAfterEqual before x acc) []

/-- Add to a list without repeats. -/
def addNew (x : Nat) (l : List Nat) : List Nat := if l.contains x then l else l ++ [x]

def headNumbers : List (Fin 4) := [0, 1, 2, 3]
def inputNumbers : List (Fin 8) := [0, 1, 2, 3, 4, 5, 6, 7]

/-! ### Time-outs (R16) -/

/-- A time-out of n ms, n at least 1, started by an event taken at a tick or between two ticks. -/
def Timer.start (n : Nat) (atTick : Bool) : Timer := some ⟨n, !atTick⟩

/-- The passage of one tick. -/
def Timer.tick : Timer → Timer
  | none => none
  | some t => some (if t.fresh then ⟨t.left, false⟩ else ⟨t.left - 1, false⟩)

/-- The time-out has run its length, and its expiry is to be taken. -/
def Timer.due : Timer → Bool
  | none => false
  | some t => !t.fresh && t.left == 0

/-- The milliseconds that a time-out has left at most: one more than its count while it waits for its first tick (R16). -/
def Countdown.most (t : Countdown) : Nat := if t.fresh then t.left + 1 else t.left

/-- The milliseconds a time-out is shown to have left (R17, R175, R190). No rule states a rounding, so what is shown is free between the
two neighbouring whole numbers: n or n + 1 for a time-out of n ms that was started between two ticks and has not met a tick yet,
and from its first tick on the count or one less (log 8). -/
def Timer.msLeft : Timer → Nat
  | none => 0
  | some t => if 0 < t.most && Config.msLeftRoundsDown t.most then t.most - 1 else t.most

/-! ### Byte layouts: most significant byte first (R193) -/

/-- A number in n bytes. -/
def bytesOf : Nat → Nat → List Byte
  | 0, _ => []
  | n + 1, v => BitVec.ofNat 8 (v / 256 ^ n) :: bytesOf n v

/-- The number that bytes spell. -/
def natOf (bytes : List Byte) : Nat := bytes.foldl (fun acc b => acc * 256 + b.toNat) 0

/-- The field of n bytes at an offset. -/
def fieldAt (offset n : Nat) (bytes : List Byte) : Nat := natOf ((bytes.drop offset).take n)

/-- An indication of one byte (R210). -/
def indication (b : Bool) : Byte := if b then 1 else 0

/-- A flag byte, or a longer set of bits, that carries items in bits 0 upward. -/
def bitsOf : List Bool → Nat
  | [] => 0
  | b :: l => (if b then 1 else 0) + 2 * bitsOf l

/-! ### CRC-16 and frames (R193, R194) -/

def crcBit (r : BitVec 16) : BitVec 16 := if r.msb then (r <<< 1) ^^^ 0x1021#16 else r <<< 1

def crcByte (r : BitVec 16) (b : Byte) : BitVec 16 :=
  let r := r ^^^ (b.zeroExtend 16 <<< 8)
  crcBit (crcBit (crcBit (crcBit (crcBit (crcBit (crcBit (crcBit r)))))))

/-- The CRC register after a span of bytes, from the initial value 0xFFFF. -/
def crc16 (bytes : List Byte) : BitVec 16 := bytes.foldl crcByte 0xFFFF#16

def startDelimiter : Byte := 0x7E
def targetPart : Byte := 0x01
def targetBar : Byte := 0x02

/-- Bytes 1 to 4 + length of a frame: what its CRC is formed over. -/
def Frame.body (f : Frame) : List Byte := f.kind :: f.addr :: bytesOf 2 f.payload.length ++ f.payload

/-- A frame as its bytes go on the wire. -/
def Frame.wire (f : Frame) : List Byte := startDelimiter :: f.body ++ bytesOf 2 (crc16 f.body).toNat

/-- What a receiver makes of the bytes that follow a start delimiter (R195). -/
inductive Judgement where
  | incomplete
  | discard
  | good (frame : Frame)
  deriving DecidableEq, Repr

/-- R195: a length above 256 discards at once; when all bytes are there the CRC decides. -/
def judge : List Byte → Judgement
  | kind :: addr :: l1 :: l0 :: rest =>
    let len := natOf [l1, l0]
    if 256 < len then .discard
    else if rest.length < len + 2 then .incomplete
    else
      let f : Frame := ⟨kind, addr, rest.take len⟩
      if natOf ((rest.drop len).take 2) = (crc16 f.body).toNat then .good f else .discard
  | _ => .incomplete

/-! ### Codes of the kinds, the statuses and the common items (R206) -/

def kindLine : Byte := 0x10
def kindHide : Byte := 0x20
def kindPack : Byte := 0x21
def kindEvent : Byte := 0x22
def kindReply : Byte := 0x23
def kindQuery : Byte := 0x40
def kindStart : Byte := 0x41
def kindStop : Byte := 0x42
def kindFlush : Byte := 0x43
def kindLineReset : Byte := 0x44
def kindAckFault : Byte := 0x45
def kindLoad : Byte := 0x46
def kindCommitCal : Byte := 0x47
def kindRead : Byte := 0x48
def kindSetFlags : Byte := 0x49
def kindClearFlags : Byte := 0x4A
def kindHeadEnable : Byte := 0x4B
def kindClearStall : Byte := 0x4C
def kindClosePack : Byte := 0x4D
def kindLockNext : Byte := 0x4E
def kindClearCounters : Byte := 0x4F

def tableWidths : Byte := 0
def tableMask : Byte := 1
def tableConditioning : Byte := 2
def tableTerms : Byte := 3
def tableHeads : Byte := 4
def tableInputs : Byte := 5
def areaRegions : Byte := 8
def areaRecords : Byte := 9
def areaQueues : Byte := 10

inductive Status where
  | ok
  | badFrame
  | badTable
  | badSegment
  | badValue
  | wrongState
  | locked
  | badChecksum
  | notNow
  deriving DecidableEq, Repr

def Status.code : Status → Byte
  | .ok => 0
  | .badFrame => 1
  | .badTable => 2
  | .badSegment => 3
  | .badValue => 4
  | .wrongState => 5
  | .locked => 6
  | .badChecksum => 7
  | .notNow => 8

def reasonLineState : Nat := 1
def reasonCalInvalid : Nat := 2
def reasonNoTerms : Nat := 3
def reasonNoHeads : Nat := 4
def reasonEstopActive : Nat := 5

def LineState.code : LineState → Byte
  | .init => 0
  | .idle => 1
  | .running => 2
  | .paused => 3
  | .faulted => 4

def HaltCause.code : HaltCause → Byte
  | .none => 0
  | .stop => 1
  | .beltRun => 2
  | .estop => 3
  | .lineLoss => 4

def HeadState.code : HeadState → Byte
  | .disabled => 0
  | .idle => 1
  | .setting => 2
  | .ready => 3
  | .striking => 4
  | .recovering => 5
  | .stalled => 6

def SaleUnit.code : SaleUnit → Byte
  | .ft2 => 0
  | .dm2 => 1
  | .m2 => 2

def Resolution.code : Resolution → Byte
  | .whole => 0
  | .quarter => 1
  | .tenth => 2
  | .hundredth => 3

/-- R206: 0 to 13 in the order of R73. -/
def Disposition.code : Disposition → Byte
  | .pending => 0
  | .stamped => 1
  | .skippedPolicy => 2
  | .skippedNoAnchor => 3
  | .skippedNoHead => 4
  | .skippedHeadOff => 5
  | .skippedCrowded => 6
  | .skippedOrder => 7
  | .skippedTooLate => 8
  | .missedLate => 9
  | .missedStalled => 10
  | .verifyFail => 11
  | .strikeAborted => 12
  | .cancelled => 13

/-- What a REPLY says (R209): its status, its detail and its data. -/
structure Reply where
  status : Status
  detail : Nat
  data : List Byte
  deriving DecidableEq, Repr

def Reply.ok (data : List Byte) : Reply := ⟨.ok, 0, data⟩

/-- A refusal: the data is empty (R209). -/
def Reply.refuse (status : Status) (detail : Nat) : Reply := ⟨status, detail, []⟩

/-- A detail made of a high and a low byte (R209). -/
def detailOf (high low : Nat) : Nat := 256 * high + low

/-- The REPLY message: request kind, status, detail, data (R209). -/
def Reply.message (kind : Byte) (r : Reply) : List Byte :=
  kind :: r.status.code :: bytesOf 2 r.detail ++ r.data

/-! ### Accessors of the device -/

def HeadEntry.absent : HeadEntry := ⟨false, 0, 0, 0, 1, 1, 1, 1, 0⟩

def Device.head (d : Device) (n : Fin 4) : Head := d.sth.heads.getD n Head.reset

def Device.setHead (d : Device) (n : Fin 4) (h : Head) : Device :=
  { d with sth := { d.sth with heads := d.sth.heads.set n h } }

/-- The HEADS entry of a head (R112). -/
def Device.headEntry (d : Device) (n : Fin 4) : HeadEntry :=
  match d.sth.table with
  | none => .absent
  | some t => t.getD n .absent

def Device.slot (d : Device) (n : Fin 4) : PackSlot := d.pku.slots.getD n ⟨none, none⟩

def Device.setSlot (d : Device) (n : Fin 4) (p : PackSlot) : Device :=
  { d with pku := { d.pku with slots := d.pku.slots.set n p } }

def Device.lineState (d : Device) : LineState := d.lct.lineState

def Device.isFaulted (d : Device) : Bool := d.lct.lineState == .faulted

/-- A word of the active set by its position of R177; a blank word counts as 0. -/
def Ccu.word (c : Ccu) (position : Nat) : Nat := (c.active.getD (position - 1) none).getD 0

/-- Pulses per line of the active CONDITIONING table (R36). -/
def Ccu.ppl (c : Ccu) : Nat := c.word 3203

/-- Scale in units of 2^-16 µm per pulse (R36). -/
def Ccu.scale (c : Ccu) : Nat := c.word 3201 * 65536 + c.word 3202

/-- Line pitch in units of 2^-16 µm (R36). -/
def Ccu.pitch (c : Ccu) : Nat := c.ppl * c.scale

def Ccu.mirror (c : Ccu) : Bool := c.word 3204 == 1
def Ccu.speck (c : Ccu) : Nat := c.word 3205
def Ccu.bridge (c : Ccu) : Nat := c.word 3206
def Ccu.diagJoin (c : Ccu) : Bool := c.word 3207 == 1

/-- What the scan divider is loaded with (R8, R9): PPL, or 4095 while the active set is marked invalid. -/
def Ccu.dividerLoad (c : Ccu) : Nat := if c.valid then c.ppl else 4095

def Ccu.lock (c : Ccu) : LockFlags := c.store.lockCell.getD ⟨false, false⟩

/-- Span width P[last + 1] - P[first] in µm (section 0.6, R35). -/
def spanWidth (sums : List Nat) (first last : Nat) : Nat := sums.getD (last + 1) 0 - sums.getD first 0

end Sys2Proof.Machine
end

