-- ==== Sys2Proof/Machine/Flags.lean ====
section
/-!
DEFINITION. The event latches and the flag words of the line control (R171 to R174, R206, R209): raising, clearing,
the mask, what a frame takes, and the words as the station sees them.
-/

namespace Sys2Proof.Machine

/-- The 27 event latches (R171). -/
inductive Latch where
  | estop
  | beltStop
  | beltStart
  | input (n : Fin 8)
  | headStall (n : Fin 4)
  | inkLow (n : Fin 4)
  | tableExhausted
  | lineMissed
  | lineLoss
  | storeFull
  | calInvalid
  | linkError
  | forwardDrop
  | reverse
  deriving DecidableEq, Repr

/-- The event latch bits of R206. -/
def Latch.bit : Latch → Nat
  | .estop => 0
  | .beltStop => 1
  | .beltStart => 2
  | .input n => 3 + n
  | .headStall n => 11 + n
  | .inkLow n => 15 + n
  | .tableExhausted => 19
  | .lineMissed => 20
  | .lineLoss => 21
  | .storeFull => 22
  | .calInvalid => 23
  | .linkError => 24
  | .forwardDrop => 25
  | .reverse => 26

def Lct.latch (l : Lct) (n : Latch) : LatchState := l.latches.getD n.bit .clear

def LatchState.raise : LatchState → LatchState
  | .clear => .pending
  | s => s

/-- The end of the level of a level latch: HELD becomes CLEAR, PENDING stays (R171). -/
def LatchState.levelEnd : LatchState → LatchState
  | .held => .clear
  | s => s

def Lct.setLatch (l : Lct) (n : Latch) (f : LatchState → LatchState) : Lct :=
  { l with latches := updateAt f n.bit l.latches }

/-- A raise: a CLEAR latch becomes PENDING, another stays as it is (R171). -/
def Lct.raise (l : Lct) (n : Latch) : Lct := l.setLatch n LatchState.raise

def Device.raise (d : Device) (n : Latch) : Device := { d with lct := d.lct.raise n }

/-- Whether an input is active (R167). -/
def InputEntry.active (e : InputEntry) (level : Bool) : Bool := e.enable && (level != e.activeLow)

def Lct.entry (l : Lct) (n : Fin 8) : InputEntry := l.table.getD n InputEntry.reset

def Lct.input (l : Lct) (n : Fin 8) : InputLine := l.inputs.getD n ⟨false, false, none⟩

def Lct.inputActive (l : Lct) (n : Fin 8) : Bool := (l.entry n).active (l.input n).debounced

/-- Whether a latch, by its bit, is a level latch whose level is active (R170, R171). -/
def Lct.levelActive (l : Lct) (bit : Nat) : Bool :=
  (bit == Latch.estop.bit && l.estop) ||
    inputNumbers.any fun n =>
      bit == (Latch.input n).bit && (l.entry n).function == .event && (l.entry n).levelMode && l.inputActive n

/-- The UNMASKED latches that are PENDING, by bit (R173). -/
def Lct.reportable (l : Lct) : List Bool :=
  List.zipWith (fun s m => s == .pending && !m) l.latches l.mask

/-- The LCT wants a report place (R173). -/
def Lct.wants (l : Lct) : Bool := l.reportable.any id

/-- The latches after the EVENT frame that carries the UNMASKED PENDING ones is placed (R173). -/
def Lct.latchesAfterReport (l : Lct) : List LatchState :=
  (List.range l.latches.length).map fun bit =>
    if l.reportable.getD bit false then (if l.levelActive bit then .held else .clear) else l.latches.getD bit .clear

/-- The EVENT frame (R173, R207). -/
def Device.eventFrame (d : Device) : Frame :=
  ⟨kindEvent, targetPart,
    bytesOf 4 (bitsOf d.lct.reportable) ++ bytesOf 4 d.bpu.uptime.toNat ++ [d.lct.haltCause.code]⟩

/-- The control word as it is laid out (R209). -/
def Control.word (c : Control) : Nat := bitsOf [c.fwdLines, c.autoResume, c.freeRun] + 256 * c.rate

/-- The event mask word: a set bit is MASKED (R209). -/
def Lct.maskWord (l : Lct) : Nat := bitsOf l.mask

end Sys2Proof.Machine
end

