-- ==== Sys2Proof/Machine/Link.lean ====
section
/-!
DEFINITION. The link interface's queues and transmitters (R196 to R204, R213): joining a FIFO, the take that a transmitter
makes, dropped frames, and the owed list of the request decoder.
-/

namespace Sys2Proof.Machine

def upCapacity : Nat := 4
def replyCapacity : Nat := 4
def reportCapacity : Nat := 32
def forwardCapacity : Nat := 8
def owedCapacity : Nat := 16

/-! ### Replies in parts (R199, R201) -/

/-- How many parts of 255 message bytes a REPLY message takes (R199). -/
def partCount (message : List Byte) : Nat := max 1 ((message.length + 254) / 255)

/-- Part k of a REPLY message as a frame: part byte, then its message bytes (R199). -/
def replyPart (message : List Byte) (k : Nat) : Frame :=
  ⟨kindReply, targetPart,
    BitVec.ofNat 8 ((if partCount message ≤ k + 1 then 128 else 0) + k) :: (message.drop (255 * k)).take 255⟩

/-- The reply FIFO is full: placed replies and reservations together number 4 (R212). -/
def Device.replyFull (d : Device) : Bool := replyCapacity ≤ d.lnk.replyFifo.length + d.dec.reservations

/-- The NOT_NOW reply that an owed request gets (R213). -/
def owedMessage (kind : Byte) : List Byte := (Reply.refuse .notNow 1).message kind

/-- A freed reply place offered to the decoder: the oldest owed entry takes it (R213). -/
def Device.offerReplyPlace (d : Device) : Device :=
  match d.dec.owed with
  | [] => d
  | kind :: rest =>
    { d with
      lnk := { d.lnk with replyFifo := d.lnk.replyFifo ++ [ReplyEntry.mk (owedMessage kind) 0] }
      dec := { d.dec with owed := rest } }

/-- The transmitter takes the next part of the oldest reply; with the last part the reply leaves and its place frees (R201). -/
def Device.sendReplyPart (d : Device) (e : ReplyEntry) (rest : List ReplyEntry) : Device :=
  let tx := some (replyPart e.message e.taken)
  if partCount e.message ≤ e.taken + 1 then
    { d with lnk := { d.lnk with downTx := tx, replyFifo := rest } }.offerReplyPlace
  else { d with lnk := { d.lnk with downTx := tx, replyFifo := { e with taken := e.taken + 1 } :: rest } }

/-- The downstream transmitter takes its next frame, or becomes IDLE (R203): replies, then reports, then forwarded frames. -/
def Device.sendNext (d : Device) : Device :=
  match d.lnk.replyFifo with
  | e :: rest => d.sendReplyPart e rest
  | [] =>
    match d.lnk.reportFifo with
    | f :: rest => { d with lnk := { d.lnk with downTx := some f, reportFifo := rest } }
    | [] =>
      match d.lnk.forwardFifo with
      | f :: rest => { d with lnk := { d.lnk with downTx := some f, forwardFifo := rest } }
      | [] => { d with lnk := { d.lnk with downTx := none } }

/-- A join finds the transmitter IDLE: it takes the frame at once (R203). -/
def Device.wakeTx (d : Device) : Device := if d.lnk.downTx.isNone then d.sendNext else d

/-- A reply is placed in the reply FIFO as the newest (R201, R212). -/
def Device.placeReply (message : List Byte) (d : Device) : Device :=
  { d with lnk := { d.lnk with replyFifo := d.lnk.replyFifo ++ [ReplyEntry.mk message 0] } }.wakeTx

/-- Whether the report FIFO has a free place (R202). -/
def Device.reportRoom (d : Device) : Bool := d.lnk.reportFifo.length < reportCapacity

/-- A frame takes a place of the report FIFO, which has room (R202). -/
def Device.placeReport (f : Frame) (d : Device) : Device :=
  if d.reportRoom then { d with lnk := { d.lnk with reportFifo := d.lnk.reportFifo ++ [f] } }.wakeTx else d

/-- A bar frame is routed to the downstream forward FIFO, or dropped (R198). -/
def Device.forwardDown (f : Frame) (d : Device) : Device :=
  if d.lnk.forwardFifo.length < forwardCapacity then
    { d with lnk := { d.lnk with forwardFifo := d.lnk.forwardFifo ++ [f] } }.wakeTx
  else { d with lnk := { d.lnk with forwardDrops := sat16 d.lnk.forwardDrops 1 } }.raise .forwardDrop

/-- A station frame with target BAR is routed to the upstream forward FIFO, or dropped (R197).
An IDLE upstream transmitter takes it at once, so that it leaves the FIFO as it joins. -/
def Device.forwardUp (f : Frame) (d : Device) : Device :=
  if d.lnk.upFifo.length < upCapacity then
    match d.lnk.upTx, d.lnk.upFifo ++ [f] with
    | none, g :: rest => { d with lnk := { d.lnk with upTx := some g, upFifo := rest } }
    | _, q => { d with lnk := { d.lnk with upFifo := q } }
  else { d with lnk := { d.lnk with upstreamDrops := sat16 d.lnk.upstreamDrops 1 } }.raise .forwardDrop

/-- The upstream transmitter ends a frame and takes the oldest held, or becomes IDLE (R197). -/
def Device.endUpFrame (d : Device) : Device :=
  if d.lnk.upTx.isNone then d
  else
    match d.lnk.upFifo with
    | f :: rest => { d with lnk := { d.lnk with upTx := some f, upFifo := rest } }
    | [] => { d with lnk := { d.lnk with upTx := none } }

/-- A frame discarded: bad frames and LINK_ERROR (R195, R196). -/
def Device.discardFrame (d : Device) : Device :=
  { d with lnk := { d.lnk with badFrames := sat16 d.lnk.badFrames 1 } }.raise .linkError

/-- An abandonment of the load assembly that is counted (R200). -/
def Device.countAbandoned (d : Device) : Device :=
  { d with lnk := { d.lnk with incompleteLoads := sat16 d.lnk.incompleteLoads 1 } }.raise .linkError

def Device.setAssembly (a : Option Assembly) (d : Device) : Device := { d with lnk := { d.lnk with assembly := a } }

def Device.setReceiver (port : Port) (r : Receiver) (d : Device) : Device :=
  match port with
  | .upstream => { d with lnk := { d.lnk with upReceiver := r } }
  | .downstream => { d with lnk := { d.lnk with downReceiver := r } }

def Lnk.receiver (l : Lnk) : Port → Receiver
  | .upstream => l.upReceiver
  | .downstream => l.downReceiver

/-- A request not performed for want of a reply place is owed a NOT_NOW, or discarded with LINK_ERROR (R213). -/
def Device.owe (kind : Byte) (d : Device) : Device :=
  if d.dec.owed.length < owedCapacity then { d with dec := { d.dec with owed := d.dec.owed ++ [kind] } }
  else d.raise .linkError

end Sys2Proof.Machine
end

