-- ==== Sys2Proof/Machine/Packs.lean ====
section
/-!
DEFINITION. The pack unit (chapter 7): feeds, closes, the PACK frame and its placing.
-/

namespace Sys2Proof.Machine

def CloseFlags.none : CloseFlags := ⟨false, false, false⟩
def CloseFlags.shortOnly : CloseFlags := ⟨true, false, false⟩
def CloseFlags.overfullOnly : CloseFlags := ⟨false, true, false⟩
def CloseFlags.policyOnly : CloseFlags := ⟨false, false, true⟩

/-- The flags byte of a PACK frame (R208). -/
def ClosedPack.flagByte (c : ClosedPack) : Byte :=
  BitVec.ofNat 8 (bitsOf [c.flags.short, c.flags.overfull, c.flags.policyChange, c.pack.overrange])

/-- The PACK frame of a close buffer (R151, R208). -/
def packFrame (slot : Fin 4) (c : ClosedPack) : Frame :=
  ⟨kindPack, targetPart,
    bytesOf 4 c.pack.number.toNat ++ bytesOf 4 c.pack.generation.toNat ++ bytesOf 2 c.pack.hides ++
      [BitVec.ofNat 8 slot, c.flagByte, BitVec.ofNat 8 c.pack.target, c.pack.unit.code, c.pack.resolution.code] ++
      bytesOf 8 c.pack.steps ++ bytesOf 8 c.pack.area ++ bytesOf 4 c.uptime.toNat⟩

/-- A HELD buffer asks for a report place: with room its PACK frame is placed and it becomes EMPTY (R147). -/
def Device.askPackPlace (n : Fin 4) (d : Device) : Device :=
  match (d.slot n).buf with
  | some c => if d.reportRoom then (d.setSlot n { d.slot n with buf := none }).placeReport (packFrame n c) else d
  | none => d

/-- The close of a FILLING accumulator into an EMPTY buffer (R145); the slot is left alone otherwise. -/
def Device.closePack (n : Fin 4) (flags : CloseFlags) (d : Device) : Device :=
  match (d.slot n).acc, (d.slot n).buf with
  | some p, none => (d.setSlot n ⟨none, some ⟨p, flags, d.bpu.uptime⟩⟩).askPackPlace n
  | _, _ => d

/-- A freed report place taken for a slot: its PACK frame is placed, and an accumulator at or above its target closes (R147, R148). -/
def Device.reportPack (n : Fin 4) (d : Device) : Device :=
  match (d.slot n).buf with
  | none => d
  | some c =>
    let d := (d.setSlot n { d.slot n with buf := none }).placeReport (packFrame n c)
    match (d.slot n).acc with
    | none => d
    | some p =>
      if p.hides < p.target then d
      else d.closePack n (if p.hides = p.target then .none else .overfullOnly)

/-- The lowest-numbered slot whose buffer is HELD (R147). -/
def Device.heldSlot (d : Device) : Option (Fin 4) := headNumbers.find? fun n => (d.slot n).buf.isSome

/-- What the evaluator gives with a hide (R88). -/
structure PackFeed where
  steps : Nat
  area : Nat
  unit : SaleUnit
  resolution : Resolution
  generation : Word32
  target : Nat
  deriving DecidableEq, Repr

/-- A pack opened with its first hide (R144). -/
def PackFeed.openPack (f : PackFeed) (number : Word32) : Pack :=
  ⟨number, 1, f.target, f.steps, f.area, f.unit, f.resolution, f.generation, false⟩

/-- A hide added to a pack (R144). -/
def PackFeed.addTo (f : PackFeed) (p : Pack) : Pack :=
  { p with
    hides := sat16 p.hides 1
    steps := sat64 p.steps f.steps
    area := sat64 p.area f.area
    overrange := p.overrange || over64 p.steps f.steps || over64 p.area f.area }

/-- After a feed: a pack at its target closes when the buffer is EMPTY (R146). -/
def Device.closeAtTarget (n : Fin 4) (d : Device) : Device :=
  match (d.slot n).acc with
  | some p => if p.hides < p.target then d else d.closePack n .none
  | none => d

/-- A hide feed (R144, R146). -/
def Device.feedPack (n : Fin 4) (f : PackFeed) (d : Device) : Device :=
  match (d.slot n).acc with
  | none =>
    let d' := d.setSlot n { d.slot n with acc := some (f.openPack d.pku.nextPack) }
    { d' with pku := { d'.pku with nextPack := d.pku.nextPack + 1 } }.closeAtTarget n
  | some p => (d.setSlot n { d.slot n with acc := some (f.addTo p) }).closeAtTarget n

/-- The closes of a TERMS load: every FILLING slot with POLICY_CHANGE, P0 to P3 in turn (R106, R150). -/
def Device.closeForTerms (d : Device) : Device :=
  headNumbers.foldl (fun d n => d.closePack n .policyOnly) d

end Sys2Proof.Machine
end

