-- ==== Sys2Proof/Machine/Records.lean ====
section
/-!
DEFINITION. The hide record store (section 4.1, 4.8), the HIDE frame, and the report places: what a freed place carries,
the LCT's EVENT frame, and the end of a downstream frame (R89 to R92, R138, R173, R202, R203).
-/

namespace Sys2Proof.Machine

/-- SUSPECT, formed from the flags (R84). -/
def HideFlags.suspect (f : HideFlags) : Bool :=
  f.exhausted || f.edge || f.interpolated || f.truncated || f.overrange

def anchorBytes : Option Anchor → List Byte
  | none => bytesOf 4 0 ++ bytesOf 4 0 ++ bytesOf 2 0 ++ bytesOf 6 0
  | some a => bytesOf 4 a.line.toNat ++ bytesOf 4 a.width ++ bytesOf 2 a.cell ++ bytesOf 6 a.pos.toNat

/-- The 104 bytes of the HIDE layout (R208). -/
def HideRecord.bytes (slot : Nat) (r : HideRecord) : List Byte :=
  bytesOf 4 r.number.toNat ++ [BitVec.ofNat 8 slot, r.disposition.code] ++
    bytesOf 2 (bitsOf [r.flags.exhausted, r.flags.edge, r.flags.interpolated, r.flags.truncated,
      r.flags.holeOverflow, r.flags.overrange, r.flags.noAnchor, r.flags.suspect]) ++
    bytesOf 4 r.firstLine.toNat ++ bytesOf 4 r.lastLine.toNat ++ bytesOf 2 r.minCell ++ bytesOf 2 r.maxCell ++
    bytesOf 6 r.born.toNat ++ bytesOf 8 r.measured ++ bytesOf 8 r.filled ++ bytesOf 8 r.deducted ++
    bytesOf 8 r.counted ++ bytesOf 2 r.smallHoles ++ bytesOf 2 r.largeHoles ++ bytesOf 4 r.steps ++
    [r.unit.code, r.resolution.code] ++ bytesOf 4 r.generation.toNat ++
    [BitVec.ofNat 8 (r.classIndex.getD 255), BitVec.ofNat 8 (match r.assigned with | none => 255 | some (h, _) => h.val)] ++
    bytesOf 6 (match r.assigned with | none => 0 | some (_, fire) => fire.toNat) ++
    anchorBytes r.anchor ++ bytesOf 4 r.audit ++ bytesOf 4 r.uptime.toNat

/-- The HIDE frame of a record (R90, R208). -/
def hideFrame (slot : Nat) (r : HideRecord) : Frame := ⟨kindHide, targetPart, r.bytes slot⟩

def Device.record (d : Device) (slot : Nat) : Option HideRecord := d.hev.store.getD slot none

def Device.setRecord (slot : Nat) (r : Option HideRecord) (d : Device) : Device :=
  { d with hev := { d.hev with store := d.hev.store.set slot r } }

/-- A FINAL record takes a report place: its HIDE frame is placed, its slot emptied, and the tracker told (R90, R92). -/
def Device.reportHide (slot : Nat) (r : HideRecord) (d : Device) : Device :=
  let d := (d.placeReport (hideFrame slot r)).setRecord slot none
  { d with rtk := { d.rtk with retryPending := true } }

/-- A record that has become FINAL asks for a report place; without room it waits in its slot (R90). -/
def Device.askHidePlace (slot : Nat) (d : Device) : Device :=
  match d.record slot with
  | some r => if r.disposition ≠ .pending && d.reportRoom then d.reportHide slot r else d
  | none => d

/-- The STH hands over a decided outcome: the record named takes the disposition and becomes FINAL (R89, R138). -/
def Device.dispose (slot : Nat) (outcome : Disposition) (d : Device) : Device :=
  match d.record slot with
  | some r => (d.setRecord slot (some { r with disposition := outcome })).askHidePlace slot
  | none => d

/-- The older of two waiting records: the hide number further behind the next one (R91). -/
def olderHide (next : Word32) : Option (Nat × HideRecord) → Nat × HideRecord → Option (Nat × HideRecord)
  | none, x => some x
  | some y, x => if behind next y.2.number < behind next x.2.number then some x else some y

/-- The slots with their indices. -/
def withIndex {α : Type} : Nat → List α → List (Nat × α)
  | _, [] => []
  | i, a :: l => (i, a) :: withIndex (i + 1) l

/-- The FINAL record with the oldest hide number, with its slot (R91). -/
def Hev.oldestFinal (h : Hev) : Option (Nat × HideRecord) :=
  (withIndex 0 h.store).foldl
    (fun best x =>
      match x.2 with
      | some r => if r.disposition = .pending then best else olderHide h.nextHide best (x.1, r)
      | none => best)
    none

/-- A freed report place is offered to the HEV, then to the PKU (R202); the LCT's turn is at the end of the event. -/
def Device.offerReportPlace (d : Device) : Device :=
  match d.hev.oldestFinal with
  | some (slot, r) => d.reportHide slot r
  | none =>
    match d.heldSlot with
    | some n => d.reportPack n
    | none => d

/-- The LCT asks for a place: in want and with room, it builds and places one EVENT frame (R173). -/
def Device.askEventPlace (d : Device) : Device :=
  if d.lct.wants && d.reportRoom then
    { d with lct := { d.lct with latches := d.lct.latchesAfterReport } }.placeReport d.eventFrame
  else d

/-- The downstream transmitter ends a frame (R203): it takes the next one, and the place of a report so taken is offered. -/
def Device.endDownFrame (d : Device) : Device :=
  if d.lnk.downTx.isNone then d
  else if d.lnk.replyFifo.isEmpty && !d.lnk.reportFifo.isEmpty then d.sendNext.offerReportPlace
  else d.sendNext

/-- The device is supplied and INIT has ended: it takes frames, requests, pulses and samples (R18, R156, R195). -/
def Device.live (d : Device) : Bool := d.powered && d.lct.lineState != .init

/-- An event that the device takes after INIT, with the LCT's ask at its end (R173). -/
def Device.event (f : Device → Device) (d : Device) : Device := if d.live then (f d).askEventPlace else d

/-- A command whose effect is on the device alone; the command queue is not its concern. -/
def State.onDevice (f : Device → Device) (s : State) : State := { s with dev := f s.dev }

/-- A command or event taken after INIT. -/
def State.event (f : Device → Device) (s : State) : Host.Outcome State Fault Refusal := .next (s.onDevice (Device.event f))

end Sys2Proof.Machine
end

