-- ==== Sys2Proof/Machine/Heads.lean ====
section
/-!
DEFINITION. The stamp scheduler and heads (chapter 6): wheel codes, admission, setting and verify, crossings, strike and
recover, switching off and on, and what the heads do when the line enters or leaves FAULTED.
-/

namespace Sys2Proof.Machine

/-! ### Wheel codes and words (R118 to R121, R211) -/

def codeBlank : Nat := 10
def codeStar : Nat := 11
def codePoint : Nat := 15

/-- The integer wheels to the left of the rightmost one: blank left of the first non-zero digit (R119). -/
def leftWheels : Nat → Nat → List Nat
  | 0, _ => []
  | k + 1, n => leftWheels k (n / 10) ++ [if n = 0 then codeBlank else n % 10]

/-- k integer wheels showing n; the rightmost always shows its digit (R119). -/
def integerWheels : Nat → Nat → List Nat
  | 0, _ => []
  | k + 1, n => leftWheels k (n / 10) ++ [n % 10]

/-- The greatest number of steps the wheels can show (R119). -/
def Resolution.capacity : Resolution → Nat
  | .whole => 99999
  | .quarter => 39999
  | .tenth => 9999
  | .hundredth => 9999

/-- The quarter wheel: blank, 1/4, 1/2 or 3/4 (R119). -/
def quarterCode (remainder : Nat) : Nat := if remainder = 0 then codeBlank else 11 + remainder

/-- D1 to D5 for s steps within the capacity (R119). -/
def footageWheels (r : Resolution) (s : Nat) : List Nat :=
  match r with
  | .whole => integerWheels 5 s
  | .quarter => integerWheels 4 (s / 4) ++ [quarterCode (s % 4)]
  | .tenth => integerWheels 3 (s / 10) ++ [codePoint, s % 10]
  | .hundredth => integerWheels 2 (s / 100) ++ [codePoint, s % 100 / 10, s % 10]

def wheelsOf (face : Nat) (digits : List Nat) : Wheels :=
  ⟨BitVec.ofNat 4 face, BitVec.ofNat 4 (digits.getD 0 0), BitVec.ofNat 4 (digits.getD 1 0),
    BitVec.ofNat 4 (digits.getD 2 0), BitVec.ofNat 4 (digits.getD 3 0), BitVec.ofNat 4 (digits.getD 4 0)⟩

/-- The wheel target (R118 to R120): stars when marked or when the footage does not fit. -/
def wheelTarget (face steps : Nat) (r : Resolution) (star : Bool) : Wheels :=
  wheelsOf face (if star || r.capacity < steps then List.replicate 5 codeStar else footageWheels r steps)

/-- The six codes as 24 bits: face, then D1 to D5 (R121). -/
def Wheels.word (w : Wheels) : BitVec 24 := w.face ++ w.d1 ++ w.d2 ++ w.d3 ++ w.d4 ++ w.d5

/-- The check field: the hide number modulo 16 (R121). -/
def StampEntry.check (e : StampEntry) : BitVec 4 := e.hide.truncate 4

/-- The shift word of an entry (R121, R211). -/
def StampEntry.shiftWord (e : StampEntry) : Word32 := e.wheels.word ++ BitVec.ofNat 4 e.force ++ e.check

/-- JAM of a readback word (R211). -/
def readbackJam (w : Word32) : Bool := w.getLsbD 3

/-- INK_LOW of a readback word (R211). -/
def readbackInkLow (w : Word32) : Bool := w.getLsbD 2

/-- The match of R124: sensed codes, check echo and marker. -/
def readbackMatches (w : Word32) (e : StampEntry) : Bool :=
  w.extractLsb' 8 24 == e.wheels.word && w.extractLsb' 4 4 == e.check && w.extractLsb' 0 2 == 2#2

/-! ### Setting (R122) -/

/-- An IDLE head with work, the line not FAULTED, starts SETTING for its front entry (R122). -/
def Device.startSetting (n : Fin 4) (atTick : Bool) (d : Device) : Device :=
  let h := d.head n
  match h.queue with
  | [] => d
  | e :: _ =>
    if h.state = .idle && !d.isFaulted then
      d.setHead n { h with
        state := .setting, retryUsed := false, lastShift := some e.shiftWord
        timer := Timer.start (d.headEntry n).setTime atTick }
    else d

/-! ### Admission (R116, R117) -/

/-- The entries of a queue that a fire position follows, and those that follow it (R115, R116). -/
def splitQueue (fire : Position) : List StampEntry → List StampEntry × List StampEntry
  | [] => ([], [])
  | e :: rest =>
    if ahead e.fire fire then ([], e :: rest)
    else
      let (front, back) := splitQueue fire rest
      (e :: front, back)

/-- Test 3 of R116: less than the spacing from the entry before or the entry after. -/
def crowded (spacing : Nat) (fire : Position) (front back : List StampEntry) : Bool :=
  (match front.getLast? with | some e => posDiff fire e.fire < spacing | none => false) ||
    (match back.head? with | some e => posDiff e.fire fire < spacing | none => false)

/-- Whether the head has its front entry committed (test 2 of R116). -/
def HeadState.committed : HeadState → Bool
  | .setting | .ready | .striking => true
  | .disabled | .idle | .recovering | .stalled => false

/-- The answer of the four tests of R116, or none when the entry is admitted. -/
def admissionRefusal (position : Position) (t : HeadEntry) (h : Head) (fire : Position) : Option Disposition :=
  if posDiff fire position < t.leadMargin || posDiff fire position ≤ 0 then some .skippedTooLate
  else if h.state.committed && (match h.queue with | e :: _ => !ahead fire e.fire | [] => false) then some .skippedOrder
  else if crowded t.spacing fire (splitQueue fire h.queue).1 (splitQueue fire h.queue).2 then some .skippedCrowded
  else if 8 ≤ h.queue.length then some .skippedCrowded
  else none

/-- An admitted entry takes its place by fire position, and an IDLE head starts setting its front entry (R117). -/
def Device.admitEntry (n : Fin 4) (e : StampEntry) (d : Device) : Device :=
  let h := d.head n
  let (front, back) := splitQueue e.fire h.queue
  (d.setHead n { h with queue := front ++ e :: back }).startSetting n false

/-! ### Decided entries (R138) -/

/-- An entry leaves the queue of a head by its fire position, with its outcome handed to its record (R138). -/
def Device.decideEntry (n : Fin 4) (e : StampEntry) (outcome : Disposition) (d : Device) : Device :=
  let h := d.head n
  (d.setHead n { h with queue := h.queue.filter fun x => x.fire != e.fire }).dispose e.slot outcome

/-- The order in which several heads act on one event: no order holds between them (R127, R138), so it is free (log 6). -/
def Device.headOrder (d : Device) (heads : List (Fin 4)) : List (Fin 4) :=
  sortWith (fun a b => Config.headRank d.draws a < Config.headRank d.draws b) heads

/-- Each of the heads acts in the free order. -/
def Device.eachHead (heads : List (Fin 4)) (act : Fin 4 → Device → Device) (d : Device) : Device :=
  { (d.headOrder heads).foldl (fun d n => act n d) d with draws := d.draws + 1 }

/-! ### Set time expiry: verify (R123 to R125) -/

/-- The head becomes STALLED with its front entry VERIFY_FAIL (R123, R124, R125). -/
def Device.stall (n : Fin 4) (e : StampEntry) (d : Device) : Device :=
  let d := d.setHead n { d.head n with state := .stalled, timer := none, retryUsed := false }
  (d.raise (.headStall n)).decideEntry n e .verifyFail

/-- The readback is kept, and INK_LOW raises its latch (R123). The word of zeros that the shift-in shifts out, which the head does not
latch, is not kept as the last shift word: the model's choice (log 36). -/
def Device.takeReadback (n : Fin 4) (w : Word32) (d : Device) : Device :=
  let d := d.setHead n { d.head n with lastReadback := some w }
  if readbackInkLow w then d.raise (.inkLow n) else d

/-- The judgement of a readback (R123, R124). -/
def Device.verify (n : Fin 4) (e : StampEntry) (w : Word32) (d : Device) : Device :=
  let h := d.head n
  if readbackJam w then d.stall n e
  else if readbackMatches w e then d.setHead n { h with state := .ready, timer := none }
  else if h.retryUsed then d.stall n e
  else
    d.setHead n { h with
      retryUsed := true, lastShift := some e.shiftWord
      timer := Timer.start (d.headEntry n).setTime true }

/-- The set time expiry of a SETTING head (R123). -/
def Device.setTimeExpiry (n : Fin 4) (w : Word32) (d : Device) : Device :=
  let h := d.head n
  match h.queue with
  | e :: _ => if h.state = .setting && h.timer.due then (d.takeReadback n w).verify n e w else d
  | [] => d

/-! ### Switching off and on (R134, R135) -/

/-- Every entry of the queue is decided CANCELLED, in order of fire position (R134). -/
def Device.cancelQueue (n : Fin 4) (d : Device) : Device :=
  (d.head n).queue.foldl (fun d e => d.decideEntry n e .cancelled) d

/-- The head is disabled (R134): its timer stops, its queue is cancelled, it becomes DISABLED. -/
def Device.disableHead (n : Fin 4) (d : Device) : Device :=
  let d := (d.setHead n { d.head n with timer := none }).cancelQueue n
  d.setHead n { d.head n with state := .disabled, retryUsed := false, disablePending := false }

/-- HEAD_ENABLE off (R134). -/
def Device.headOff (n : Fin 4) (d : Device) : Device :=
  let h := d.head n
  match h.state with
  | .disabled => d
  | .striking => d.setHead n { h with disablePending := true }
  | .idle | .setting | .ready | .recovering | .stalled => d.disableHead n

/-- HEAD_ENABLE on, for a head whose enable is set (R135). -/
def Device.headOn (n : Fin 4) (d : Device) : Device :=
  let h := d.head n
  if h.state = .disabled then d.setHead n { h with state := .idle }
  else if h.disablePending then d.setHead n { h with disablePending := false }
  else d

/-- CLEAR_STALL (R126). -/
def Device.clearStall (n : Fin 4) (d : Device) : Device :=
  let h := d.head n
  if h.state = .stalled then (d.setHead n { h with state := .idle }).startSetting n false else d

/-! ### Fire, strike and recover (R127 to R132) -/

/-- The recover time expires: the head becomes IDLE and sets its next front entry (R130). -/
def Device.endRecovery (n : Fin 4) (d : Device) : Device :=
  (d.setHead n { d.head n with state := .idle, timer := none }).startSetting n true

/-- The recover time expiry of a RECOVERING head (R130). -/
def Device.recoverTimeExpiry (n : Fin 4) (d : Device) : Device :=
  if (d.head n).state = .recovering && (d.head n).timer.due then d.endRecovery n else d

/-- The dwell after a strike; a recover time of 0 ms expires as it is started (R129, R16). -/
def Device.startRecovery (n : Fin 4) (d : Device) : Device :=
  let t := (d.headEntry n).recoverTime
  if t = 0 then d.endRecovery n
  else d.setHead n { d.head n with state := .recovering, timer := Timer.start t true }

/-- The strike time expiry of a STRIKING head (R129). -/
def Device.strikeTimeExpiry (n : Fin 4) (d : Device) : Device :=
  let h := d.head n
  match h.queue with
  | e :: _ =>
    if h.state = .striking && h.timer.due then
      let d := (d.setHead n { h with strikeHigh := false, timer := none }).decideEntry n e .stamped
      if h.disablePending then d.disableHead n else d.startRecovery n
    else d
  | [] => d

/-- The strike: the line goes high and the strike time starts (R128). -/
def Device.strike (n : Fin 4) (d : Device) : Device :=
  d.setHead n { d.head n with
    state := .striking, strikeHigh := true, timer := Timer.start (d.headEntry n).strikeTime false }

/-- The entry of a queue whose fire position is the new position (R127). -/
def Device.crossedEntry (d : Device) (n : Fin 4) : Option StampEntry :=
  (d.head n).queue.find? fun e => e.fire == d.bpu.position

/-- A crossed entry that the head is not ready to strike is MISSED_LATE; a setting of it is abandoned (R131). -/
def Device.missLate (n : Fin 4) (e : StampEntry) (isFront : Bool) (d : Device) : Device :=
  let h := d.head n
  let d :=
    if h.state = .setting && isFront then d.setHead n { h with state := .idle, timer := none, retryUsed := false } else d
  (d.decideEntry n e .missedLate).startSetting n false

/-- The forward crossing of an entry, by the head's state (R127). -/
def Device.cross (n : Fin 4) (d : Device) : Device :=
  match d.crossedEntry n with
  | none => d
  | some e =>
    let isFront := match (d.head n).queue with | f :: _ => f.fire == e.fire | [] => false
    match (d.head n).state with
    | .stalled => d.decideEntry n e .missedStalled
    | .ready => if isFront then d.strike n else d.missLate n e false
    | .striking => if isFront then d else d.missLate n e false
    | .disabled | .idle | .setting | .recovering => d.missLate n e isFront

/-- A new position is presented after a pulse (R5, R127): a FORWARD pulse crosses, a REVERSE one does not. -/
def Device.presentPosition (direction : Direction) (d : Device) : Device :=
  match direction with
  | .reverse => d
  | .forward =>
    match headNumbers.filter fun n => (d.crossedEntry n).isSome with
    | [] => d
    | crossed => d.eachHead crossed Device.cross

/-! ### The heads and the line state (R136, R137, R142) -/

/-- What a head does when the line enters FAULTED (R136). -/
def Device.faultHead (n : Fin 4) (d : Device) : Device :=
  let h := d.head n
  match h.state with
  | .setting => d.setHead n { h with state := .idle, timer := none, retryUsed := false }
  | .ready => d.setHead n { h with state := .idle }
  | .striking =>
    let d := d.setHead n { h with state := .idle, strikeHigh := false, timer := none }
    let d := match h.queue with | e :: _ => d.decideEntry n e .strikeAborted | [] => d
    if h.disablePending then d.disableHead n else d
  | .disabled | .idle | .recovering | .stalled => d

/-- The heads when the line enters FAULTED: the strikes in progress are aborted in the free order of the heads (R136). -/
def Device.faultHeads (d : Device) : Device :=
  let striking := headNumbers.filter fun n => (d.head n).state == .striking
  let others := headNumbers.filter fun n => (d.head n).state != .striking
  let d := others.foldl (fun d n => d.faultHead n) d
  match striking with
  | [] => d
  | _ => d.eachHead striking Device.faultHead

/-- The heads when the line leaves FAULTED: IDLE heads with work start SETTING (R137). -/
def Device.resumeHeads (d : Device) : Device :=
  headNumbers.foldl (fun d n => d.startSetting n false) d

/-- LINE_RESET of one head (R142). -/
def Head.lineReset (h : Head) : Head :=
  { h with
    queue := []
    timer := none
    strikeHigh := false
    retryUsed := false
    disablePending := false
    state := if h.state = .disabled || h.disablePending then .disabled else .idle }

/-- A HEADS load puts each head in IDLE or DISABLED by its new enable (R113); the strike line is driven only in STRIKING
(R128). -/
def Head.afterLoad (t : HeadEntry) (h : Head) : Head :=
  { h with
    state := if t.enable then .idle else .disabled
    retryUsed := false
    disablePending := false
    strikeHigh := false }

end Sys2Proof.Machine
end

