-- ==== Sys2Proof/Machine/LineControl.lean ====
section
/-!
DEFINITION. The line control (chapter 8): the changes of line state with their effects (R157), the belt run and emergency
stop conditions, the line inputs and their debounce (R161 to R170).
-/

namespace Sys2Proof.Machine

/-! ### Changes of line state (R157, R158) -/

/-- The pause retirement timer is stopped when the outstanding-line list is empty (R14). -/
def Device.stopPauseIfEmpty (d : Device) : Device :=
  if d.bpu.outstanding.isEmpty then { d with bpu := { d.bpu with pauseTimer := none } } else d

/-- What leaving RUNNING brings in the BPU: the free-run source stops, and the pause retirement timer starts when lines
are outstanding (R2, R14). -/
def Bpu.leaveRunning (b : Bpu) (atTick : Bool) : Bpu :=
  { b with
    freeRunLeft := 0
    pauseTimer := if b.outstanding.isEmpty then b.pauseTimer else Timer.start 50 atTick }

/-- RUNNING is left for PAUSED with a cause (R157, R158); in another state nothing happens. -/
def Device.pauseLine (cause : HaltCause) (atTick : Bool) (d : Device) : Device :=
  if d.lct.lineState = .running then
    { d with
      bpu := d.bpu.leaveRunning atTick
      lct := { d.lct with lineState := .paused, haltCause := cause } }
  else d

/-- RUNNING is entered (R157). -/
def Device.runLine (d : Device) : Device :=
  { d with
    bpu := { d.bpu with pauseTimer := none }
    lct := { d.lct with lineState := .running } }

/-- FAULTED is entered from IDLE, RUNNING or PAUSED with cause ESTOP and the effects on the heads (R136, R157, R163). -/
def Device.faultLine (atTick : Bool) (d : Device) : Device :=
  match d.lct.lineState with
  | .running =>
    { d with
      bpu := d.bpu.leaveRunning atTick
      lct := { d.lct with lineState := .faulted, haltCause := .estop } }.faultHeads
  | .idle | .paused =>
    { d with lct := { d.lct with lineState := .faulted, haltCause := .estop } }.faultHeads
  | .init | .faulted => d

/-- FAULTED is left for PAUSED (R137, R157, R164). -/
def Device.leaveFault (d : Device) : Device :=
  { d with lct := { d.lct with lineState := .paused } }.resumeHeads

/-- Tests 3 to 6 of a START (R159), as its refusal. -/
def Device.startRefusal (d : Device) : Option Reply :=
  if d.ccu.committing then some (.refuse .notNow 0)
  else if !d.ccu.valid then some (.refuse .wrongState reasonCalInvalid)
  else if d.hev.terms.isNone then some (.refuse .wrongState reasonNoTerms)
  else if d.sth.table.isNone then some (.refuse .wrongState reasonNoHeads)
  else none

/-! ### The two conditions (R161, R163) -/

/-- The inputs that take part in a condition: enabled, with its function. -/
def Lct.inputsOf (l : Lct) (f : InputFunction) : List (Fin 8) :=
  inputNumbers.filter fun n => (l.entry n).enable && (l.entry n).function == f

/-- The belt run condition, formed anew (R161). -/
def Lct.formBeltRun (l : Lct) : Bool :=
  !(l.inputsOf .beltRun).isEmpty && (l.inputsOf .beltRun).all l.inputActive

/-- The emergency stop condition, formed anew (R163). -/
def Lct.formEstop (l : Lct) : Bool := (l.inputsOf .estop).any l.inputActive

/-- The belt run condition becomes ACTIVE or INACTIVE by a debounced edge (R161, R162). -/
def Device.beltEdge (atTick : Bool) (d : Device) : Device :=
  let now := d.lct.formBeltRun
  if now = d.lct.beltRun then d
  else
    let d := { d with lct := { d.lct with beltRun := now } }
    if now then
      let d := d.raise .beltStart
      if d.lct.lineState = .paused && d.lct.control.autoResume && d.lct.haltCause = .beltRun && d.startRefusal.isNone
      then d.runLine else d
    else (d.raise .beltStop).pauseLine .beltRun atTick

/-- The emergency stop condition is formed anew, by an edge or by an INPUTS load (R163, R168). -/
def Device.estopEdge (atTick : Bool) (d : Device) : Device :=
  let now := d.lct.formEstop
  if now = d.lct.estop then d
  else
    let d := { d with lct := { d.lct with estop := now } }
    if now then (d.faultLine atTick).raise .estop
    else { d with lct := d.lct.setLatch .estop LatchState.levelEnd }

/-! ### The line inputs (R169, R170) -/

def Device.setInput (n : Fin 8) (i : InputLine) (d : Device) : Device :=
  { d with lct := { d.lct with inputs := d.lct.inputs.set n i } }

/-- An edge of an enabled EVENT input (R170). -/
def Device.eventInputEdge (n : Fin 8) (d : Device) : Device :=
  if d.lct.inputActive n then d.raise (.input n)
  else if (d.lct.entry n).levelMode then { d with lct := d.lct.setLatch (.input n) LatchState.levelEnd }
  else d

/-- A debounced edge: the debounced level takes the raw level, and the edge acts through the input's function (R169). -/
def Device.debouncedEdge (n : Fin 8) (atTick : Bool) (d : Device) : Device :=
  let i := d.lct.input n
  let d := d.setInput n { i with debounced := i.raw, timer := none }
  if (d.lct.entry n).enable then
    match (d.lct.entry n).function with
    | .unused => d
    | .beltRun => d.beltEdge atTick
    | .estop => d.estopEdge atTick
    | .event => d.eventInputEdge n
  else d

/-- A sample of a line input (R169): it starts or stops the debounce timer; with 0 ms the edge comes at once. -/
def Device.sampleInput (n : Fin 8) (level : Bool) (d : Device) : Device :=
  let i := d.lct.input n
  if level = i.debounced then d.setInput n { i with raw := level, timer := none }
  else if i.timer.isSome then d.setInput n { i with raw := level }
  else if (d.lct.entry n).debounce = 0 then (d.setInput n { i with raw := level }).debouncedEdge n false
  else d.setInput n { i with raw := level, timer := Timer.start (d.lct.entry n).debounce false }

/-- The expiry of a debounce timer (R169). -/
def Device.debounceExpiry (n : Fin 8) (d : Device) : Device :=
  if (d.lct.input n).timer.due then d.debouncedEdge n true else d

/-- Stage 3 of an INPUTS load, for one input under the new table (R168). -/
def Lct.inputLatchAfterLoad (l : Lct) (n : Fin 8) : Lct :=
  if (l.entry n).enable && (l.entry n).function == .event then
    if !(l.entry n).levelMode || !l.inputActive n then l.setLatch (.input n) LatchState.levelEnd else l
  else l.setLatch (.input n) fun _ => .clear

/-- Stages 1 to 4 of an INPUTS load (R168). -/
def Device.takeInputsTable (table : List InputEntry) (d : Device) : Device :=
  let l : Lct :=
    { d.lct with
      table := table
      inputs := d.lct.inputs.map fun i => { i with debounced := i.raw, timer := none } }
  let l := inputNumbers.foldl Lct.inputLatchAfterLoad l
  { d with lct := { l with beltRun := l.formBeltRun } }.estopEdge false

end Sys2Proof.Machine
end

