-- ==== Sys2Proof/Machine/Lines.lean ====
section
/-!
DEFINITION. The line conditioner (chapter 2) and the belt position unit (chapter 1): missed-line declarations, conditioning,
acceptance of LINE frames, pulses and triggers.
-/

namespace Sys2Proof.Machine

def queueCapacity : Nat := 4

/-! ### Missed lines and overflow fills (R24, R27, R28) -/

/-- The trailing fills have come to 255 anew (R27, R165). -/
def Device.lineLoss (d : Device) : Device := (d.raise .lineLoss).pauseLine .lineLoss false

/-- With overflow fills above 0 and queue room, one FILL entry carrying 256 missed lines is placed (R28). -/
def Device.placeFillEntry (d : Device) : Device :=
  let c := d.lcn
  if 0 < c.overflow && c.queue.length < queueCapacity then
    let line := c.expected + 255
    let pos := c.lastDeclared.pos -
      BitVec.ofNat 48 ((c.lastDeclared.line - line).toNat * d.ccu.ppl)
    let left := 255 + c.overflow - 256
    let d := { d with lcn := { c with
      queue := c.queue ++ [⟨.fill, line, pos, 255⟩]
      expected := c.expected + 256
      trailing := min left 255
      overflow := left - 255 } }
    if 255 ≤ left then d.lineLoss else d
  else d

/-- One more overflow fill; past the top of its range the value is free (R28, log 11). -/
def moreOverflow (n : Nat) : Nat := if n < 2 ^ 32 - 1 then n + 1 else Config.overflowPastTop % 2 ^ 32

/-- A missed-line declaration (R24). -/
def Device.declareMissed (o : Outstanding) (d : Device) : Device :=
  let d := { d with lcn := { d.lcn with missed := sat16 d.lcn.missed 1, lastDeclared := o } }.raise .lineMissed
  if d.lcn.trailing < 255 then
    let d' := { d with lcn := { d.lcn with trailing := d.lcn.trailing + 1 } }
    if d.lcn.trailing + 1 = 255 then d'.lineLoss else d'
  else { d with lcn := { d.lcn with overflow := moreOverflow d.lcn.overflow } }.placeFillEntry

/-! ### Conditioning (R30 to R34) -/

/-- Cells inside a run are leather (R30). -/
def rowOf (cells : Nat) (runs : List (Nat × Nat)) : List Bool :=
  (List.range cells).map fun c => runs.any fun r => r.1 ≤ c && c ≤ r.2

/-- FORCE_OFF cells are set to background (R31, first pass). -/
def forceOff (mask : List Nat) (row : List Bool) : List Bool := List.zipWith (fun m c => m != 1 && c) mask row

/-- For each cell, the value of the nearest cell to its left that is not FILL. -/
def nearest : Option Bool → List Nat → List Bool → List (Option Bool)
  | last, m :: mask, c :: row => last :: nearest (if m = 2 then last else some c) mask row
  | _, _, _ => []

/-- The value a FILL span takes from its neighbours (R31). -/
def spanValue : Option Bool → Option Bool → Bool
  | some a, some b => a && b
  | some a, none => a
  | none, some b => b
  | none, none => false

/-- FILL spans take a value from the cells beside them (R31, second pass). -/
def fillSpans (mask : List Nat) (row : List Bool) : List Bool :=
  let left := nearest none mask row
  let right := (nearest none mask.reverse row.reverse).reverse
  List.zipWith (fun (m, c) (l, r) => if m = 2 then spanValue l r else c) (mask.zip row) (left.zip right)

/-- The MASK table applied to a row (R31). -/
def applyMask (mask : List Nat) (row : List Bool) : List Bool := fillSpans mask (forceOff mask row)

/-- The maximal leather spans of a row, from cell i on. -/
def runsOfRow : Nat → List Bool → List (Nat × Nat)
  | _, [] => []
  | i, c :: row =>
    if c then
      match runsOfRow (i + 1) row with
      | (a, b) :: rest => if a = i + 1 then (i, b) :: rest else (i, i) :: (a, b) :: rest
      | [] => [(i, i)]
    else runsOfRow (i + 1) row

/-- Runs separated by 1 to B background cells are joined, all judged together (R32). -/
def bridgeRuns (bridge : Nat) : List (Nat × Nat) → List (Nat × Nat)
  | [] => []
  | (a, b) :: rest =>
    match bridgeRuns bridge rest with
    | (a', b') :: rest' => if a' - b - 1 ≤ bridge then (a, b') :: rest' else (a, b) :: (a', b') :: rest'
    | [] => [(a, b)]

/-- Runs of 1 to K cells are removed (R33). -/
def dropSpecks (speck : Nat) (runs : List (Nat × Nat)) : List (Nat × Nat) :=
  runs.filter fun r => speck < r.2 + 1 - r.1

def cellCount : Nat := 1600

/-- The mask settings of the active set, by conditioned cell; a blank word counts as NORMAL. -/
def Ccu.maskRow (c : Ccu) : List Nat := ((c.active.drop 1600).take 1600).map fun w => w.getD 0

/-- Mirror, mask, bridge, speck: the run list of the belt (R30 to R33). -/
def conditionRow (mirror : Bool) (mask : List Nat) (bridge speck : Nat) (row : List Bool) : List (Nat × Nat) :=
  dropSpecks speck (bridgeRuns bridge (runsOfRow 0 (applyMask mask (if mirror then row.reverse else row))))

/-- A bar run list conditioned under the active set, with widths (R30, R34). -/
def Ccu.condition (c : Ccu) (runs : List (Nat × Nat)) : List Run :=
  (conditionRow c.mirror c.maskRow c.bridge c.speck (rowOf cellCount runs)).map fun r =>
    ⟨r.1, r.2, spanWidth c.prefixSums r.1 r.2⟩

/-! ### The LINE frame (R20, R207) -/

/-- The run list of a LINE payload, as start and end cells. -/
def lineRuns : Nat → List Byte → List (Nat × Nat)
  | 0, _ => []
  | k + 1, bytes => (fieldAt 0 2 bytes, fieldAt 2 2 bytes) :: lineRuns k (bytes.drop 4)

/-- Every run in range, ascending, with at least one background cell between (R20). -/
def runsLegal : List (Nat × Nat) → Bool
  | [] => true
  | [(a, b)] => a ≤ b && b ≤ 1599
  | (a, b) :: (a', b') :: rest => a ≤ b && b ≤ 1599 && b + 2 ≤ a' && runsLegal ((a', b') :: rest)

def barStatusOf : Nat → Option BarStatus
  | 0 => some .clean
  | 1 => some .dusty
  | 2 => some .lampLow
  | _ => none

def lineNumberOf (payload : List Byte) : Word32 := BitVec.ofNat 32 (fieldAt 0 4 payload)

/-- OVERFLOW of a LINE payload (R207). -/
def lineOverflow (payload : List Byte) : Bool := (payload.getD 5 0).getLsbD 0

/-- The bar status and runs of a well-formed LINE payload, or none when it is malformed (R20). -/
def parseLine (payload : List Byte) : Option (BarStatus × List (Nat × Nat)) :=
  let count := fieldAt 6 2 payload
  if payload.length = 8 + 4 * count && count ≤ 62 && runsLegal (lineRuns count (payload.drop 8)) then
    (barStatusOf (fieldAt 4 1 payload)).map fun s => (s, lineRuns count (payload.drop 8))
  else none

/-! ### Acceptance (R13, R21 to R25) -/

/-- R13: the entries older than line n leave as missed, then n itself leaves; the answer is its trigger position. -/
def Device.presentLine (n : Word32) (d : Device) : Option Position × Device :=
  match d.bpu.outstanding.dropWhile (fun o => o.line != n) with
  | [] => (none, d)
  | o :: newer =>
    let older := d.bpu.outstanding.takeWhile fun o => o.line != n
    let d := { d with bpu := { d.bpu with outstanding := o :: newer } }
    let d := older.foldl (fun d o => d.declareMissed o) d
    (some o.pos, { d with bpu := { d.bpu with outstanding := newer } }.stopPauseIfEmpty)

/-- The queue test (R25): a conditioned line joins the line queue, or is missed. -/
def Device.queueLine (n : Word32) (pos : Position) (status : BarStatus) (runs : List Run) (d : Device) : Device :=
  let c := d.lcn
  if c.queue.length < queueCapacity && c.overflow = 0 then
    { d with lcn := { c with
      queue := c.queue ++ [⟨.line status runs, n, pos, c.trailing⟩]
      trailing := 0
      expected := n + 1 } }
  else d.declareMissed ⟨n, pos⟩

/-- Steps 4 to 7 of acceptance, for an outstanding line (R23, R25, R34). -/
def Device.acceptOutstanding (payload : List Byte) (pos : Position) (d : Device) : Device :=
  let n := lineNumberOf payload
  match parseLine payload with
  | none =>
    { d with lcn := { d.lcn with malformed := sat16 d.lcn.malformed 1 } }.declareMissed ⟨n, pos⟩
  | some (status, barRuns) =>
    if lineOverflow payload then d.declareMissed ⟨n, pos⟩
    else
      let runs := d.ccu.condition barRuns
      if 64 < runs.length then d.declareMissed ⟨n, pos⟩ else d.queueLine n pos status runs

/-- A LINE frame discarded as stray (R21, R22). -/
def Device.strayLine (d : Device) : Device := { d with lcn := { d.lcn with stray := sat16 d.lcn.stray 1 } }

/-- The acceptance steps of a good LINE frame (section 2.2). -/
def Device.acceptLine (payload : List Byte) (d : Device) : Device :=
  if d.lct.lineState = .idle then d.strayLine
  else if payload.length < 8 then { d with lcn := { d.lcn with malformed := sat16 d.lcn.malformed 1 } }
  else
    match d.presentLine (lineNumberOf payload) with
    | (none, d) => d.strayLine
    | (some pos, d) => d.acceptOutstanding payload pos

/-! ### Pulses and triggers (R1 to R10) -/

/-- The trigger (R10, R12): with 2 lines outstanding the older is retired as missed before the new one joins. Where that retirement
raises LINE_LOSS and pauses the line, the stages after it are taken all the same, so that the new line joins the list in PAUSED
with the pause retirement timer running: the model's choice (log 35). -/
def Device.trigger (d : Device) : Device :=
  let d :=
    match d.bpu.outstanding with
    | o :: p :: rest => { d with bpu := { d.bpu with outstanding := p :: rest } }.declareMissed o
    | _ => d
  { d with bpu := { d.bpu with
    outstanding := d.bpu.outstanding ++ [⟨d.bpu.nextLine, d.bpu.position⟩]
    nextLine := d.bpu.nextLine + 1
    divider := d.ccu.dividerLoad
    triggerLine := false } }

/-- A FORWARD pulse taken with the position at the mark is a new-belt pulse (R7). -/
def Bpu.newBelt (b : Bpu) : Bool := b.position == b.mark

/-- What a FORWARD pulse moves (R4, R6, R7). -/
def Bpu.forward (b : Bpu) : Bpu :=
  { b with
    position := b.position + 1
    mark := if b.newBelt then b.mark + 1 else b.mark
    direction := .forward }

/-- What a REVERSE pulse moves; a mark 2^47 - 1 ahead is lowered with the position (R4, R6, R7). -/
def Bpu.backward (b : Bpu) : Bpu :=
  { b with
    position := b.position - 1
    mark := if (b.mark - b.position).toNat = 2 ^ 47 - 1 then b.mark - 1 else b.mark
    direction := .reverse }

/-- A new-belt pulse taken in RUNNING lowers the divider, and at 0 the BPU triggers (R8). -/
def Device.countDivider (d : Device) : Device :=
  if d.bpu.divider ≤ 1 then d.trigger else { d with bpu := { d.bpu with divider := d.bpu.divider - 1 } }

/-- A pulse (R4 to R8): the BPU takes it, then presents the new position to the heads. -/
def Device.pulse (direction : Direction) (d : Device) : Device :=
  match direction with
  | .forward =>
    let counts := d.bpu.newBelt && d.lct.lineState == .running
    let d := { d with bpu := d.bpu.forward }
    (if counts then d.countDivider else d).presentPosition .forward
  | .reverse =>
    let d := if d.bpu.direction = .forward then d.raise .reverse else d
    { d with bpu := d.bpu.backward }.presentPosition .reverse

/-- The pulse a new sample of the encoder levels gives, if any (R1). -/
def encoderPulse (oldA oldB a b : Bool) : Option Direction :=
  if a != oldA && b != oldB then none
  else if a != oldA then some (if a != b then .forward else .reverse)
  else if b != oldB then some (if a == b then .forward else .reverse)
  else none

/-- An encoder sample (R1, R3): the levels become the reference, and the pulse is taken while the source is ENCODER. -/
def Device.encoderSample (a b : Bool) (d : Device) : Device :=
  let p := encoderPulse d.bpu.encA d.bpu.encB a b
  let d := { d with bpu := { d.bpu with encA := a, encB := b } }
  match p with
  | some direction => if d.lct.control.freeRun then d else d.pulse direction
  | none => d

/-- The free-run source gives one of the pulses of the present millisecond (R2). -/
def Device.freeRunPulse (d : Device) : Device :=
  if d.lct.lineState = .running && d.lct.control.freeRun && 0 < d.bpu.freeRunLeft then
    { d with bpu := { d.bpu with freeRunLeft := d.bpu.freeRunLeft - 1 } }.pulse .forward
  else d

/-- The pause retirement timer expires: every line outstanding is declared missed, oldest first (R14). -/
def Device.retireOutstanding (d : Device) : Device :=
  if d.bpu.pauseTimer.due then
    let lines := d.bpu.outstanding
    lines.foldl (fun d o => d.declareMissed o) { d with bpu := { d.bpu with outstanding := [], pauseTimer := none } }
  else d

end Sys2Proof.Machine
end

