-- ==== Sys2Proof/Machine/Evaluation.lean ====
section
/-!
DEFINITION. The hide evaluator's evaluation of an offer (sections 4.2 to 4.7): scrap and slot tests, holes, counted area,
steps, class, flags, stamp decision, pack feed.
-/

namespace Sys2Proof.Machine

/-- FAU of one step, for the legal combinations (R97). -/
def fauPerStep : SaleUnit → Resolution → Option Nat
  | .ft2, .whole => some 6088493629440000
  | .ft2, .quarter => some 1522123407360000
  | .ft2, .tenth => some 608849362944000
  | .ft2, .hundredth => some 60884936294400
  | .dm2, .whole => some 655360000000000
  | .dm2, .tenth => some 65536000000000
  | .m2, .tenth => some 6553600000000000
  | .m2, .hundredth => some 655360000000000
  | .dm2, .quarter => none
  | .dm2, .hundredth => none
  | .m2, .whole => none
  | .m2, .quarter => none

def Terms.stepFau (t : Terms) : Nat := (fauPerStep t.unit t.resolution).getD 1

/-- FAU of one mm² (R78). -/
def fauPerMm2 : Nat := 65536000000

/-- What stage 4 sums over the holes (R78, R79). -/
structure HoleTally where
  filled : Nat
  deducted : Nat
  small : Nat
  large : Nat
  overrange : Bool
  deriving DecidableEq, Repr

/-- One hole classified small or large (R78). -/
def HoleTally.addHole (limit : Nat) (t : HoleTally) (area : Nat) : HoleTally :=
  if area ≤ limit * fauPerMm2 then
    { t with filled := sat64 t.filled area, small := sat16 t.small 1, overrange := t.overrange || over64 t.filled area }
  else
    { t with
      deducted := sat64 t.deducted area, large := sat16 t.large 1, overrange := t.overrange || over64 t.deducted area }

/-- Stage 4: the hole list in order, then the holes beyond the twelfth, all large (R78, R79). -/
def Region.holeTally (r : Region) (limit : Nat) : HoleTally :=
  let t := r.holes.foldl (fun t h => HoleTally.addHole limit t h.area) (⟨0, 0, 0, 0, false⟩ : HoleTally)
  { t with
    deducted := sat64 t.deducted r.holeOverSum
    large := sat16 t.large r.holeOverCount
    overrange := t.overrange || over64 t.deducted r.holeOverSum }

/-- Stage 6: the rounded steps of a counted area (R81). -/
def roundSteps (mode : Rounding) (area step : Nat) : Nat :=
  match mode with
  | .down => area / step
  | .nearest => area / step + (if step ≤ 2 * (area % step) then 1 else 0)
  | .up => area / step + (if 0 < area % step then 1 else 0)

/-- Stage 7: the lowest class, from index k on, whose band holds the steps (R82). -/
def classOf (steps : Nat) : Nat → List TermClass → Option (Nat × TermClass)
  | _, [] => none
  | k, c :: rest => if c.low ≤ steps && steps ≤ c.high then some (k, c) else classOf steps (k + 1) rest

/-- Stages 3 to 8: the record of an offer, with its disposition PENDING and no head assigned (R77 to R83). -/
def Device.makeRecord (t : Terms) (r : Region) (d : Device) : HideRecord :=
  let holes := r.holeTally t.smallHole
  let counted := sat64 r.area holes.filled
  let beyond := over64 r.area holes.filled
  let steps := roundSteps t.rounding counted t.stepFau
  { number := d.hev.nextHide
    firstLine := r.firstLine
    lastLine := r.lastLine
    minCell := r.minCell
    maxCell := r.maxCell
    born := r.born
    measured := r.area
    filled := if beyond then counted - r.area else holes.filled
    deducted := holes.deducted
    counted := counted
    smallHoles := holes.small
    largeHoles := holes.large
    steps := steps
    unit := t.unit
    resolution := t.resolution
    generation := d.hev.generation
    classIndex := (classOf steps 0 t.classes).map Prod.fst
    flags :=
      { exhausted := r.flags.exhausted
        edge := r.flags.edge
        interpolated := decide (t.interpolation < r.interpolated)
        truncated := r.flags.truncated
        holeOverflow := r.flags.holeOverflow
        overrange := r.flags.overrange || holes.overrange || beyond
        noAnchor := r.anchor.isNone }
    anchor := r.anchor
    assigned := none
    disposition := .pending
    audit := d.ccu.audit
    uptime := d.bpu.uptime }

/-- The lowest EMPTY slot of the store (R72, R77). -/
def Hev.emptySlot (h : Hev) : Option Nat :=
  ((withIndex 0 h.store).find? fun x => x.2.isNone).map Prod.fst

/-- The heads whose entry is enabled and whose zone holds the cell (R86). -/
def Device.candidates (d : Device) (cell : Nat) : List (Fin 4) :=
  headNumbers.filter fun n =>
    (d.headEntry n).enable && (d.headEntry n).zoneFirst ≤ cell && cell ≤ (d.headEntry n).zoneLast

/-- Head assignment (R86): a head, or the disposition of a hide that gets none. -/
def Device.assignHead (d : Device) (cell : Nat) : Except Disposition (Fin 4) :=
  match d.candidates cell with
  | [] => .error .skippedNoHead
  | heads =>
    match heads.find? fun n => (d.head n).state != .disabled with
    | none => .error .skippedHeadOff
    | some n => .ok n

/-- Class face, force level and star mark handed to admission (R87). -/
def stampMarks (t : Terms) (suspect : Bool) (c : Option TermClass) : Nat × Nat × Bool :=
  let star := suspect && t.suspect == .stars
  match c with
  | some c => (c.face, c.force, star)
  | none => (0, 15, star)

/-- Stage 9, with a head assigned: the fire position is written and the STH asked to take in the entry (R87). -/
def Device.askAdmission (t : Terms) (slot : Nat) (r : HideRecord) (a : Anchor) (n : Fin 4) (d : Device) : Device :=
  let fire := a.pos + BitVec.ofNat 48 (d.headEntry n).offset
  let r := { r with assigned := some (n, fire) }
  match admissionRefusal d.bpu.position (d.headEntry n) (d.head n) fire with
  | some answer => d.setRecord slot (some { r with disposition := answer })
  | none =>
    let (face, force, star) := stampMarks t r.flags.suspect (r.classIndex.bind fun k => t.classes[k]?)
    (d.setRecord slot (some r)).admitEntry n ⟨r.number, slot, fire, wheelTarget face r.steps r.resolution star, force⟩

/-- Stage 9: stamp decision, head assignment, admission (R85 to R87). -/
def Device.stampDecision (t : Terms) (slot : Nat) (r : HideRecord) (d : Device) : Device :=
  if r.flags.suspect && t.suspect == .skip then d.setRecord slot (some { r with disposition := .skippedPolicy })
  else
    match r.anchor with
    | none => d.setRecord slot (some { r with disposition := .skippedNoAnchor })
    | some a =>
      match d.assignHead a.cell with
      | .error answer => d.setRecord slot (some { r with disposition := answer })
      | .ok n => d.askAdmission t slot r a n

/-- Stage 10: a hide that is not SUSPECT and whose class names a pack slot is fed to it (R88). -/
def Device.feedHide (t : Terms) (r : HideRecord) (d : Device) : Device :=
  match r.classIndex.bind fun k => t.classes[k]? with
  | some c =>
    match c.pack with
    | some n =>
      if r.flags.suspect then d
      else d.feedPack n ⟨r.steps, r.counted, r.unit, r.resolution, r.generation, c.target⟩
    | none => d
  | none => d

/-- The answers of the evaluator (R64). -/
inductive Answer where
  | scrap
  | take
  | refuse
  deriving DecidableEq, Repr

/-- Stages 3 to 11, for an offer that makes a record in a slot (R77 to R90). -/
def Device.takeOffer (t : Terms) (slot : Nat) (o : Region) (d : Device) : Device :=
  let r := d.makeRecord t o
  let d := { d with hev := { d.hev with nextHide := d.hev.nextHide + 1 } }
  ((d.stampDecision t slot r).feedHide t r).askHidePlace slot

/-- The evaluation of one offer (R74 to R90). With no terms, which R108 rules out, nothing is taken. -/
def Device.evaluate (o : Region) (d : Device) : Answer × Device :=
  match d.hev.terms with
  | none => (.refuse, d)
  | some t =>
    if o.area < t.minHide * t.stepFau then
      (.scrap, { d with hev := { d.hev with scraps := sat16 d.hev.scraps 1 } })
    else
      match d.hev.emptySlot with
      | none => (.refuse, d.raise .storeFull)
      | some slot => (.take, d.takeOffer t slot o)

end Sys2Proof.Machine
end

