-- ==== Sys2Proof/Machine/Tracker.lean ====
section
/-!
DEFINITION. The region tracker (chapter 3): the stages of a line operation, fills, offer walks, FLUSH's closures, and what the
tracker serves between lines except the requests themselves.
-/

namespace Sys2Proof.Machine

/-- What a line operation reads at its start (R47), with the number and trigger position of its line. -/
structure LineContext where
  line : Word32
  pos : Position
  isFill : Bool
  sums : List Nat
  pitch : Nat
  diagJoin : Bool
  setback : Nat
  minAnchor : Nat
  deriving DecidableEq, Repr

def Rtk.region (k : Rtk) (i : Nat) : Region := k.table.getD i (Region.cleared .leather i)

def Rtk.setRegion (k : Rtk) (i : Nat) (r : Region) : Rtk := { k with table := k.table.set i r }

/-! ### Labels, roots and matching (R49, R57) -/

/-- The root a label resolves to: parents are followed until an entry is its own (R49). At most 64 entries are passed. -/
def rootOf (table : List Region) : Nat → Nat → Nat
  | 0, i => i
  | fuel + 1, i =>
    let p := (table.getD i (Region.cleared .leather i)).parent
    if p = i then i else rootOf table fuel p

def Rtk.root (k : Rtk) (i : Nat) : Nat := rootOf k.table 64 i

/-- The overlap test and join rule (R49). -/
def overlaps (diagJoin : Bool) (s e a b : Nat) : Bool :=
  (s ≤ b && a ≤ e) || (diagJoin && (b + 1 == s || e + 1 == a))

/-- The roots of the labelled spans that a span overlaps, without repeats (R49). -/
def Rtk.rootsOver (k : Rtk) (diagJoin : Bool) (spans : List Span) (s e : Nat) : List Nat :=
  spans.foldl
    (fun acc p =>
      match p.label with
      | .untracked => acc
      | .entry i => if overlaps diagJoin s e p.first p.last then addNew (k.root i) acc else acc)
    []

/-- The survivor's order: earliest first line, then lowest index (R52). -/
def Rtk.survives (k : Rtk) (now : Word32) (i j : Nat) : Bool :=
  behind now (k.region j).firstLine < behind now (k.region i).firstLine ||
    (behind now (k.region i).firstLine == behind now (k.region j).firstLine && i < j)

/-! ### Merging (R52 to R54, R58) -/

/-- A hole taken into a list in order of closure, behind those that closed earlier or on the same line (R53). -/
def mergeHoles (now : Word32) (mine theirs : List Hole) : List Hole :=
  theirs.foldl (fun acc h => insertAfterEqual (fun x y => behind now y.line < behind now x.line) h acc) mine

/-- An entry of the loser's ring taken into the survivor's, line by line; the wider run stays, the survivor's when equal (R54). -/
def ringTake (now : Word32) (x : Anchor) : List Anchor → List Anchor
  | [] => [x]
  | a :: l =>
    if a.line = x.line then (if a.width < x.width then x else a) :: l
    else if behind now a.line < behind now x.line then x :: a :: l
    else a :: ringTake now x l

def mergeRings (now : Word32) (mine theirs : List Anchor) : List Anchor :=
  theirs.foldl (fun acc x => ringTake now x acc) mine

/-- The wider of two anchors; the survivor's when equal (R54). -/
def widerAnchor : Option Anchor → Option Anchor → Option Anchor
  | some a, some b => if a.width < b.width then some b else some a
  | some a, none => some a
  | none, b => b

def RegionFlags.or (a b : RegionFlags) : RegionFlags :=
  ⟨a.exhausted || b.exhausted, a.edge || b.edge, a.holeOverflow || b.holeOverflow,
    a.truncated || b.truncated, a.overrange || b.overrange⟩

def holeAreas (l : List Hole) : Nat := l.foldl (fun acc h => acc + h.area) 0

/-- What the survivor holds after it has absorbed a loser (R52, R53, R54, R58). -/
def Region.absorb (now exhaustion : Word32) (a b : Region) : Region :=
  let holes := mergeHoles now a.holes b.holes
  let beyond := holes.drop 12
  let overSum := a.holeOverSum + b.holeOverSum + holeAreas beyond
  let overCount := sat16 a.holeOverCount (b.holeOverCount + beyond.length)
  let flags := a.flags.or b.flags
  { a with
    area := sat64 a.area b.area
    minCell := min a.minCell b.minCell
    maxCell := max a.maxCell b.maxCell
    epoch := if behind exhaustion a.epoch < behind exhaustion b.epoch then b.epoch else a.epoch
    flags := { flags with
      overrange := flags.overrange || over64 a.area b.area || decide (max64 < overSum)
      holeOverflow := flags.holeOverflow || decide (0 < overCount) }
    interpolated := max a.interpolated b.interpolated
    holes := holes.take 12
    holeOverSum := min overSum max64
    holeOverCount := overCount
    ring := mergeRings now a.ring b.ring
    anchor := widerAnchor a.anchor b.anchor
    openTop := a.openTop || b.openTop }

/-- One loser becomes MERGED into the survivor (R52). -/
def Rtk.mergeInto (c : LineContext) (survivor : Nat) (k : Rtk) (loser : Nat) : Rtk :=
  let a := k.region survivor
  let b := k.region loser
  (k.setRegion survivor (a.absorb c.line k.exhaustion b)).setRegion loser { b with state := .merged, parent := survivor }

/-- A fresh OPEN entry (R50, R57). -/
def Region.opened (c : LineContext) (kind : RegionKind) (index first last : Nat) (epoch : Word32) (openTop : Bool) : Region :=
  { Region.cleared kind index with
    state := .opened
    firstLine := c.line
    lastLine := c.line
    minCell := first
    maxCell := last
    born := c.pos
    epoch := epoch
    touched := true
    openTop := openTop }

/-- A run or gap asks for a new entry: the one on top of the stack, or UNTRACKED with the exhaustion count raised (R44, R45, R50). -/
def Rtk.allocate (c : LineContext) (kind : RegionKind) (first last : Nat) (openTop : Bool) (k : Rtk) : Rtk × Label :=
  match k.stack with
  | [] => ({ k with exhaustion := k.exhaustion + 1 }, .untracked)
  | i :: rest =>
    ({ k with stack := rest }.setRegion i (Region.opened c kind i first last k.exhaustion openTop), .entry i)

/-- A span with its set of roots: new, continued, or merged (R49 to R52, R57, R58). The answer is its label. -/
def Rtk.joinSpan (c : LineContext) (kind : RegionKind) (roots : List Nat) (first last : Nat) (openTop : Bool)
    (k : Rtk) : Rtk × Label :=
  match sortWith (k.survives c.line) roots with
  | [] => k.allocate c kind first last openTop
  | survivor :: losers =>
    let k := losers.foldl (Rtk.mergeInto c survivor) k
    (k.setRegion survivor { k.region survivor with touched := true }, .entry survivor)

/-- Stage 2 for one run (R49 to R52). -/
def Rtk.matchRun (c : LineContext) (k : Rtk) (r : Run) : Rtk :=
  let roots := k.rootsOver c.diagJoin k.prev.runs r.first r.last
  let (k, label) := k.joinSpan c .leather roots r.first r.last false
  { k with cur := { k.cur with runs := k.cur.runs ++ [⟨r.first, r.last, r.width, label⟩] } }

/-! ### Accumulation and the anchor ring (R55, R56) -/

/-- A span adds its area, last line and extent to its root (R55, R58). -/
def Region.addSpan (c : LineContext) (s : Span) (r : Region) : Region :=
  { r with
    area := sat64 r.area (s.width * c.pitch)
    lastLine := c.line
    minCell := min r.minCell s.first
    maxCell := max r.maxCell s.last
    flags := { r.flags with overrange := r.flags.overrange || over64 r.area (s.width * c.pitch) } }

def Rtk.accumulate (c : LineContext) (k : Rtk) (s : Span) : Rtk :=
  match s.label with
  | .untracked => k
  | .entry i => k.setRegion (k.root i) ((k.region (k.root i)).addSpan c s)

/-- EDGE for a run that reaches cell 0 or cell 1599 (R55). -/
def Rtk.markEdge (k : Rtk) (s : Span) : Rtk :=
  match s.label with
  | .untracked => k
  | .entry i =>
    if s.first = 0 || s.last = 1599 then
      let r := k.region (k.root i)
      k.setRegion (k.root i) { r with flags := { r.flags with edge := true } }
    else k

/-- Whether an entry leaving the ring becomes the anchor (R56). -/
def anchorTaken (c : LineContext) (r : Region) (a : Anchor) : Bool :=
  (match r.anchor with | none => true | some b => b.width < a.width) &&
    c.minAnchor ≤ a.width && behind c.line a.line + c.setback ≤ behind c.line r.firstLine

/-- While the ring holds more than S entries, the oldest leaves and is judged (R56). -/
def leaveRing (c : LineContext) (r : Region) : List Anchor → Region
  | [] => { r with ring := [] }
  | a :: l =>
    if c.setback < (a :: l).length then
      leaveRing c (if anchorTaken c r a then { r with anchor := some a } else r) l
    else { r with ring := a :: l }

/-- The widest of a root's runs on the line, the leftmost of equals (R56). -/
def Rtk.widestRun (k : Rtk) (root : Nat) : Option Span :=
  k.cur.runs.foldl
    (fun best s =>
      match s.label with
      | .untracked => best
      | .entry i =>
        if k.root i = root then
          match best with
          | none => some s
          | some b => if b.width < s.width then some s else some b
        else best)
    none

/-- The leather roots touched on the line, each once. -/
def Rtk.touchedRoots (k : Rtk) : List Nat :=
  k.cur.runs.foldl (fun acc s => match s.label with | .untracked => acc | .entry i => addNew (k.root i) acc) []

/-- A touched root pushes its widest run into its ring (R56). -/
def Rtk.pushAnchor (c : LineContext) (k : Rtk) (root : Nat) : Rtk :=
  match k.widestRun root with
  | none => k
  | some s =>
    let r := k.region root
    k.setRegion root (leaveRing c r (r.ring ++ [⟨c.line, s.width, (s.first + s.last) / 2, c.pos⟩]))

/-- A fill raises the interpolated lines of every leather root a run of it joins (R48). -/
def Rtk.countFill (k : Rtk) (root : Nat) : Rtk :=
  let r := k.region root
  k.setRegion root { r with interpolated := sat16 r.interpolated 1 }

/-- Stage 3 (R55, R56), with the count of R48 when the line is a fill. -/
def Rtk.stage3 (c : LineContext) (k : Rtk) : Rtk :=
  let k := k.cur.runs.foldl (Rtk.accumulate c) k
  let k := k.cur.runs.foldl Rtk.markEdge k
  let roots := k.touchedRoots
  let k := roots.foldl (Rtk.pushAnchor c) k
  if c.isFill then roots.foldl Rtk.countFill k else k

/-! ### Gaps (R46, R57, R58) -/

/-- The gaps between consecutive runs (R46). -/
def gapsOf (sums : List Nat) : List Span → List Run
  | a :: b :: rest =>
    ⟨a.last + 1, b.first - 1, spanWidth sums (a.last + 1) (b.first - 1)⟩ :: gapsOf sums (b :: rest)
  | _ => []

/-- Every cell of the span lies within one of the runs (R57, R60). -/
def coveredBy (runs : List Span) (first last : Nat) : Option Span :=
  runs.find? fun r => r.first ≤ first && last ≤ r.last

/-- Stage 4 for one gap (R57, R58). -/
def Rtk.matchGap (c : LineContext) (k : Rtk) (g : Run) : Rtk :=
  let roots := k.rootsOver c.diagJoin k.prev.gaps g.first g.last
  let openTop := (coveredBy k.prev.runs g.first g.last).isNone
  let (k, label) := k.joinSpan c .gap roots g.first g.last openTop
  { k with cur := { k.cur with gaps := k.cur.gaps ++ [⟨g.first, g.last, g.width, label⟩] } }

/-- Stage 4 (R57, R58). -/
def Rtk.stage4 (c : LineContext) (k : Rtk) : Rtk :=
  let k := (gapsOf c.sums k.cur.runs).foldl (Rtk.matchGap c) k
  k.cur.gaps.foldl (Rtk.accumulate c) k

/-! ### Relabelling and closures (R59 to R63) -/

def Rtk.relabelSpan (k : Rtk) (s : Span) : Span :=
  match s.label with
  | .untracked => s
  | .entry i => { s with label := .entry (k.root i) }

def Rtk.relabel (k : Rtk) (l : LineList) : LineList := ⟨l.runs.map k.relabelSpan, l.gaps.map k.relabelSpan⟩

/-- An entry returns to FREE with its fields cleared and its kind kept, its index on top of the stack (R41, R44). -/
def Rtk.release (k : Rtk) (i : Nat) : Rtk :=
  { k with stack := i :: k.stack }.setRegion i (Region.cleared (k.region i).kind i)

/-- Stage 5 (R59): relabel both lists to roots, then release the MERGED entries in ascending index order. -/
def Rtk.stage5 (k : Rtk) : Rtk :=
  let k := { k with prev := k.relabel k.prev, cur := k.relabel k.cur }
  ((List.range 64).filter fun i => (k.region i).state == .merged).foldl Rtk.release k

/-- The last-line gaps of a gap root: those of the previous-line list that carry its label (R43). -/
def Rtk.lastGaps (k : Rtk) (root : Nat) : List Span := k.prev.gaps.filter fun g => g.label == .entry root

/-- The gap roots that close on this line, in order of their leftmost last-line gap (R60). -/
def Rtk.closingGaps (k : Rtk) : List Nat :=
  k.prev.gaps.foldl
    (fun acc g =>
      match g.label with
      | .untracked => acc
      | .entry i =>
        if (k.region i).kind = .gap && (k.region i).state = .opened && !(k.region i).touched then addNew i acc else acc)
    []

/-- The labels that the third test of R60 compares for one last-line gap, or none when a cell of it is not covered. -/
def Rtk.boundLabels (k : Rtk) (g : Span) : Option (List Label) :=
  match k.prev.runs.find? (fun r => r.last + 1 == g.first), k.prev.runs.find? (fun r => r.first == g.last + 1),
      coveredBy k.cur.runs g.first g.last with
  | some a, some b, some c => some [a.label, b.label, c.label]
  | _, _, _ => none

/-- The label all of them carry: a table entry, one and the same (R60). -/
def commonLabel : List Label → Option Nat
  | .entry i :: rest => if rest.all (· == .entry i) then some i else none
  | _ => none

/-- The hole test (R60): the leather root of the hole, or none for a bay. -/
def Rtk.holeRoot (k : Rtk) (i : Nat) : Option Nat :=
  if (k.region i).openTop then none
  else
    let bounds := (k.lastGaps i).map k.boundLabels
    if bounds.all Option.isSome then commonLabel (bounds.flatMap fun b => b.getD []) else none

/-- A hole recorded against its leather root (R61). -/
def Region.addHole (now exhaustion : Word32) (r gap : Region) : Region :=
  let r := if gap.epoch = exhaustion then r else { r with flags := { r.flags with exhausted := true } }
  if r.holes.length < 12 then { r with holes := r.holes ++ [⟨gap.area, now⟩] }
  else
    { r with
      holeOverSum := sat64 r.holeOverSum gap.area
      holeOverCount := sat16 r.holeOverCount 1
      flags := { r.flags with
        holeOverflow := true
        overrange := r.flags.overrange || over64 r.holeOverSum gap.area } }

/-- One closing gap root: a hole or a bay; its entry is released (R60 to R62). -/
def Rtk.closeGap (now : Word32) (k : Rtk) (i : Nat) : Rtk :=
  match k.holeRoot i with
  | some root => (k.setRegion root ((k.region root).addHole now k.exhaustion (k.region i))).release i
  | none => k.release i

/-- Stage 6 (R60). -/
def Rtk.stage6 (now : Word32) (k : Rtk) : Rtk := k.closingGaps.foldl (Rtk.closeGap now) k

/-- The close of a leather root (R63); TRUNCATED when FLUSH closes it (R67). -/
def Region.closeLeather (exhaustion : Word32) (truncated : Bool) (r : Region) : Region :=
  if r.kind = .leather && r.state = .opened && !r.touched then
    { r with
      state := .closedWait
      ring := []
      flags := { r.flags with
        exhausted := r.flags.exhausted || r.epoch != exhaustion
        truncated := r.flags.truncated || truncated } }
  else r

/-- Stage 7 (R63). -/
def Rtk.stage7 (truncated : Bool) (k : Rtk) : Rtk :=
  { k with table := k.table.map (Region.closeLeather k.exhaustion truncated) }

/-- Stage 9 (R66). -/
def Rtk.stage9 (c : LineContext) (k : Rtk) : Rtk :=
  { k with
    table := k.table.map fun r => { r with touched := false }
    prev := k.cur
    prevLine := some ⟨c.line, c.pos⟩
    cur := .empty
    linesProcessed := if c.isFill then k.linesProcessed else sat16 k.linesProcessed 1 }

/-- Stages 2 to 7 of a line operation on its runs. -/
def Rtk.stages2to7 (c : LineContext) (runs : List Run) (k : Rtk) : Rtk :=
  let k := runs.foldl (Rtk.matchRun c) k
  (((k.stage3 c).stage4 c).stage5.stage6 c.line).stage7 false

/-- Whether a run or gap of the present line found no entry (R45). -/
def Rtk.anyUntracked (k : Rtk) : Bool := (k.cur.runs ++ k.cur.gaps).any fun s => s.label == .untracked

/-! ### Offers (R64, R65) -/

/-- The CLOSED_WAIT entries in the order of an offer walk: lowest born position, then lowest index (R64). -/
def Rtk.walkOrder (k : Rtk) : List Nat :=
  sortWith (fun i j => posDiff (k.region i).born (k.region j).born < 0)
    ((List.range 64).filter fun i => (k.region i).state == .closedWait)

/-- One offer, and what its answer does to the entry (R64). -/
def Device.offer (d : Device) (i : Nat) : Device :=
  match d.evaluate (d.rtk.region i) with
  | (.refuse, d) => d
  | (_, d) => { d with rtk := d.rtk.release i }

/-- An offer walk (R64): retry pending is cleared, then every CLOSED_WAIT entry is offered once. -/
def Device.offerWalk (d : Device) : Device :=
  let d := { d with rtk := { d.rtk with retryPending := false } }
  d.rtk.walkOrder.foldl Device.offer d

/-! ### Line operations and fills (R47, R48) -/

def Device.lineContext (t : Terms) (line : Word32) (pos : Position) (isFill : Bool) (d : Device) : LineContext :=
  ⟨line, pos, isFill, d.ccu.prefixSums, d.ccu.pitch, d.ccu.diagJoin, t.setback, t.minAnchor⟩

/-- One complete pass through stages 2 to 9 (R48). -/
def Device.lineOperation (c : LineContext) (runs : List Run) (d : Device) : Device :=
  let k := d.rtk.stages2to7 c runs
  let d := { d with rtk := k }
  let d := if k.anyUntracked then d.raise .tableExhausted else d
  let d := d.offerWalk
  { d with rtk := d.rtk.stage9 c }

def spanRun (s : Span) : Run := ⟨s.first, s.last, s.width⟩

/-- A fill: the previous line's runs are performed again under another line (R48). -/
def Device.performFill (t : Terms) (line : Word32) (pos : Position) (d : Device) : Device :=
  d.lineOperation (d.lineContext t line pos true) (d.rtk.prev.runs.map spanRun)

/-- How many replays an entry takes: its fills, and for a FILL entry its own line (R48). -/
def QueueEntry.replays (e : QueueEntry) : Nat :=
  match e.content with
  | .line _ _ => e.fillsBefore
  | .fill => e.fillsBefore + 1

/-- The replays an entry under way has left. -/
def Work.left (w : Work) : Nat := w.entry.replays - w.done

/-- The taking of the oldest queue entry (R26): the last bar status is set and the freed place offered to the overflow fills. -/
def Device.takeEntry (d : Device) : Device :=
  match d.lcn.queue with
  | [] => d
  | e :: rest =>
    { d with
      rtk := { d.rtk with work := some ⟨e, 0⟩ }
      lcn := { d.lcn with
        queue := rest
        lastStatus := match e.content with | .line s _ => some s | .fill => d.lcn.lastStatus } }.placeFillEntry

/-- Replay number done of the entry under way, under its own line number and trigger position (R48). -/
def Device.replayOne (t : Terms) (w : Work) (d : Device) : Device :=
  let back := w.entry.fillsBefore - w.done
  let line := w.entry.line - BitVec.ofNat 32 back
  let pos := w.entry.pos - BitVec.ofNat 48 (back * d.ccu.ppl)
  let d := d.performFill t line pos
  let w := { w with done := w.done + 1 }
  { d with rtk := { d.rtk with
    work := if w.entry.content = .fill && w.left = 0 then none else some w } }

/-- The replays of the entry under way that are left, at most n of them (R48). -/
def Device.replayAll (t : Terms) : Nat → Device → Device
  | 0, d => d
  | n + 1, d =>
    match d.rtk.work with
    | some w => if w.left = 0 then d else Device.replayAll t n (d.replayOne t w)
    | none => d

/-- The line of a LINE entry whose fills are done, on its own runs; the entry ends (R48, R66). -/
def Device.performLine (t : Terms) (d : Device) : Device :=
  match d.rtk.work with
  | some w =>
    match w.entry.content with
    | .line _ runs =>
      let d := d.lineOperation (d.lineContext t w.entry.line w.entry.pos false) runs
      { d with rtk := { d.rtk with work := none } }
    | .fill => d
  | none => d

/-! ### FLUSH (R67) -/

/-- The line that FLUSH closes against: the previous line, and line 0 when there has been none (then nothing is open). -/
def Rtk.flushLine (k : Rtk) : Word32 := match k.prevLine with | some o => o.line | none => 0

/-- FLUSH's closures: stages 6 to 8 against a line with no runs and no gaps (R67). -/
def Device.flushRegions (d : Device) : Device :=
  let d := { d with rtk := (d.rtk.stage6 d.rtk.flushLine).stage7 true }
  let d := d.offerWalk
  { d with rtk := { d.rtk with prev := .empty } }

end Sys2Proof.Machine
end

