-- ==== Sys2Proof/Machine/Operands.lean ====
section
/-!
DEFINITION. The operand forms of the link: how a frame and a request message name a command (R196, R198, R209, R212), the
data of each table in LOAD messages and READ replies with the checks that refuse it (R97, R98, R103, R104, R112, R113,
R167, R168, R177, R180, R210).
-/

namespace Sys2Proof.Machine

def byteAt (n : Nat) (bytes : List Byte) : Byte := bytes.getD n 0

/-- The first check that fails, by its detail. -/
def firstBad : List (Bool × Nat) → Option Nat
  | [] => none
  | (ok, detail) :: rest => if ok then firstBad rest else some detail

/-! ### TERMS data (R97, R98, R103, R104, R210) -/

def termsLength : Nat := 110
def maxSteps : Nat := 302978

def saleUnitOf : Nat → Option SaleUnit
  | 0 => some .ft2
  | 1 => some .dm2
  | 2 => some .m2
  | _ => none

def resolutionOf : Nat → Option Resolution
  | 0 => some .whole
  | 1 => some .quarter
  | 2 => some .tenth
  | 3 => some .hundredth
  | _ => none

def roundingOf : Nat → Option Rounding
  | 0 => some .down
  | 1 => some .nearest
  | 2 => some .up
  | _ => none

def suspectModeOf : Nat → Option SuspectMode
  | 0 => some .skip
  | 1 => some .stamp
  | 2 => some .stars
  | _ => none

def Rounding.code : Rounding → Byte
  | .down => 0
  | .nearest => 1
  | .up => 2

def SuspectMode.code : SuspectMode → Byte
  | .skip => 0
  | .stamp => 1
  | .stars => 2

/-- The pack slot code: P0 to P3, or 255 for NONE; another code names no value. -/
def packSlotOf : Nat → Option (Option (Fin 4))
  | 0 => some (some 0)
  | 1 => some (some 1)
  | 2 => some (some 2)
  | 3 => some (some 3)
  | 255 => some none
  | _ => none

/-- The offset of a field of class k in TERMS data. -/
def classOffset (k field : Nat) : Nat := 14 + 12 * k + field

/-- The range checks of class k in the order of R98, fields 10 to 15 (R103, R209). -/
def classChecks (b : List Byte) (k : Nat) : List (Bool × Nat) :=
  [(fieldAt (classOffset k 0) 4 b ≤ maxSteps, detailOf 10 k), (fieldAt (classOffset k 4) 4 b ≤ maxSteps, detailOf 11 k),
    (fieldAt (classOffset k 8) 1 b ≤ 15, detailOf 12 k), (fieldAt (classOffset k 9) 1 b ≤ 15, detailOf 13 k),
    ((packSlotOf (fieldAt (classOffset k 10) 1 b)).isSome, detailOf 14 k),
    (1 ≤ fieldAt (classOffset k 11) 1 b && fieldAt (classOffset k 11) 1 b ≤ 99, detailOf 15 k)]

/-- The range checks of a TERMS table, the nine terms in the order of R97, then the classes (R103). The minimum hide area,
the small-hole limit and the interpolation limit fill their fields, so that no value of theirs is out of range. -/
def termsChecks (b : List Byte) : List (Bool × Nat) :=
  [((saleUnitOf (fieldAt 0 1 b)).isSome, detailOf 1 0), ((resolutionOf (fieldAt 1 1 b)).isSome, detailOf 2 0),
    ((roundingOf (fieldAt 2 1 b)).isSome, detailOf 3 0), (1 ≤ fieldAt 9 1 b && fieldAt 9 1 b ≤ 8, detailOf 7 0),
    (fieldAt 10 4 b ≤ 6400000, detailOf 8 0), ((suspectModeOf (fieldAt 3 1 b)).isSome, detailOf 9 0)] ++
    (List.range 8).flatMap (classChecks b)

/-- The class of TERMS data. -/
def classAt (b : List Byte) (k : Nat) : TermClass where
  low := fieldAt (classOffset k 0) 4 b
  high := fieldAt (classOffset k 4) 4 b
  face := fieldAt (classOffset k 8) 1 b
  force := fieldAt (classOffset k 9) 1 b
  pack := (packSlotOf (fieldAt (classOffset k 10) 1 b)).getD none
  target := fieldAt (classOffset k 11) 1 b

/-- The table that TERMS data spells, once every field is in range. -/
def termsAt (b : List Byte) : Terms where
  unit := (saleUnitOf (fieldAt 0 1 b)).getD .ft2
  resolution := (resolutionOf (fieldAt 1 1 b)).getD .whole
  rounding := (roundingOf (fieldAt 2 1 b)).getD .down
  minHide := fieldAt 4 2 b
  smallHole := fieldAt 6 2 b
  interpolation := fieldAt 8 1 b
  setback := fieldAt 9 1 b
  minAnchor := fieldAt 10 4 b
  suspect := (suspectModeOf (fieldAt 3 1 b)).getD .skip
  classes := (List.range 8).map (classAt b)

/-- Test 4 over the pack targets: class k against the lower-indexed classes of its slot (R104). -/
def targetAgrees (lower : List TermClass) (c : TermClass) : Bool :=
  c.pack.isNone || lower.all fun o => o.pack != c.pack || o.target == c.target

def targetChecks : Nat → List TermClass → List TermClass → List (Bool × Nat)
  | _, _, [] => []
  | k, lower, c :: rest => (targetAgrees lower c, detailOf 15 k) :: targetChecks (k + 1) (lower ++ [c]) rest

/-- Test 4 of a TERMS load (R104), the combination of unit and resolution first: section 5.8 has a table with a refused
combination and a differing pack target (attempt 3, over the classes of attempt 4) answered BAD_VALUE with the resolution. -/
def termsWholeChecks (t : Terms) : List (Bool × Nat) :=
  ((fauPerStep t.unit t.resolution).isSome, detailOf 2 0) :: targetChecks 0 [] t.classes

/-- Tests 3 and 4 of R102: the detail of the first field refused, or none. -/
def termsRefusal (b : List Byte) : Option Nat := firstBad (termsChecks b ++ termsWholeChecks (termsAt b))

def TermClass.bytes (c : TermClass) : List Byte :=
  bytesOf 4 c.low ++ bytesOf 4 c.high ++ bytesOf 1 c.face ++ bytesOf 1 c.force ++
    [(match c.pack with | some n => BitVec.ofNat 8 n.val | none => 255)] ++ bytesOf 1 c.target

/-- A TERMS table in the layout of the LOAD data (R110, R210). -/
def Terms.bytes (t : Terms) : List Byte :=
  [t.unit.code, t.resolution.code, t.rounding.code, t.suspect.code] ++ bytesOf 2 t.minHide ++ bytesOf 2 t.smallHole ++
    bytesOf 1 t.interpolation ++ bytesOf 1 t.setback ++ bytesOf 4 t.minAnchor ++ t.classes.flatMap TermClass.bytes

/-! ### HEADS data (R112, R113, R210) -/

def headsLength : Nat := 80

/-- The checks of head n in the order of R112, fields 1 to 9. Which cell is named when the first is above the last
is free (log 9). -/
def headChecks (b : List Byte) (n : Nat) : List (Bool × Nat) :=
  let o := 20 * n
  let first := fieldAt (o + 1) 2 b
  let last := fieldAt (o + 3) 2 b
  [(fieldAt o 1 b ≤ 1, detailOf 1 n), (first ≤ 1599, detailOf 2 n), (last ≤ 1599, detailOf 3 n),
    (first ≤ last, detailOf (if Config.zoneOrderNamesLast then 3 else 2) n),
    (1 ≤ fieldAt (o + 9) 2 b, detailOf 5 n),
    (1 ≤ fieldAt (o + 11) 4 b && fieldAt (o + 11) 4 b ≤ 16777215, detailOf 6 n),
    (1 ≤ fieldAt (o + 15) 2 b && fieldAt (o + 15) 2 b ≤ 1000, detailOf 7 n),
    (1 ≤ fieldAt (o + 17) 1 b && fieldAt (o + 17) 1 b ≤ 250, detailOf 8 n), (fieldAt (o + 18) 2 b ≤ 1000, detailOf 9 n)]

def headsRefusal (b : List Byte) : Option Nat := firstBad ((List.range 4).flatMap (headChecks b))

def headEntryAt (b : List Byte) (n : Nat) : HeadEntry where
  enable := fieldAt (20 * n) 1 b == 1
  zoneFirst := fieldAt (20 * n + 1) 2 b
  zoneLast := fieldAt (20 * n + 3) 2 b
  offset := fieldAt (20 * n + 5) 4 b
  leadMargin := fieldAt (20 * n + 9) 2 b
  spacing := fieldAt (20 * n + 11) 4 b
  setTime := fieldAt (20 * n + 15) 2 b
  strikeTime := fieldAt (20 * n + 17) 1 b
  recoverTime := fieldAt (20 * n + 18) 2 b

def headsAt (b : List Byte) : List HeadEntry := (List.range 4).map (headEntryAt b)

def HeadEntry.bytes (h : HeadEntry) : List Byte :=
  [indication h.enable] ++ bytesOf 2 h.zoneFirst ++ bytesOf 2 h.zoneLast ++ bytesOf 4 h.offset ++
    bytesOf 2 h.leadMargin ++ bytesOf 4 h.spacing ++ bytesOf 2 h.setTime ++ bytesOf 1 h.strikeTime ++
    bytesOf 2 h.recoverTime

/-! ### INPUTS data (R167, R168, R210) -/

def inputsLength : Nat := 40

def inputFunctionOf : Nat → Option InputFunction
  | 0 => some .unused
  | 1 => some .beltRun
  | 2 => some .estop
  | 3 => some .event
  | _ => none

def InputFunction.code : InputFunction → Byte
  | .unused => 0
  | .beltRun => 1
  | .estop => 2
  | .event => 3

/-- The checks of input n in the order of R167, fields 1 to 5; every debounce byte is in range. -/
def inputChecks (b : List Byte) (n : Nat) : List (Bool × Nat) :=
  [((inputFunctionOf (fieldAt (5 * n) 1 b)).isSome, detailOf 1 n), (fieldAt (5 * n + 1) 1 b ≤ 1, detailOf 2 n),
    (fieldAt (5 * n + 2) 1 b ≤ 1, detailOf 3 n), (fieldAt (5 * n + 3) 1 b ≤ 1, detailOf 4 n)]

def inputsRefusal (b : List Byte) : Option Nat := firstBad ((List.range 8).flatMap (inputChecks b))

def inputEntryAt (b : List Byte) (n : Nat) : InputEntry where
  function := (inputFunctionOf (fieldAt (5 * n) 1 b)).getD .unused
  activeLow := fieldAt (5 * n + 1) 1 b == 1
  levelMode := fieldAt (5 * n + 2) 1 b == 1
  enable := fieldAt (5 * n + 3) 1 b == 1
  debounce := fieldAt (5 * n + 4) 1 b

def inputsAt (b : List Byte) : List InputEntry := (List.range 8).map (inputEntryAt b)

def InputEntry.bytes (e : InputEntry) : List Byte :=
  [e.function.code, indication e.activeLow, indication e.levelMode, indication e.enable] ++ bytesOf 1 e.debounce

/-! ### Verified-set data (R177, R179, R180, R210) -/

/-- The tables of the verified set (R177). -/
inductive CalTable where
  | widths
  | mask
  | conditioning
  deriving DecidableEq, Repr

def CalTable.code : CalTable → Byte
  | .widths => tableWidths
  | .mask => tableMask
  | .conditioning => tableConditioning

/-- How many segments a table has (R179). -/
def CalTable.segments : CalTable → Nat
  | .widths => 13
  | .mask => 2
  | .conditioning => 1

/-- The words before the segment, counted from position 1 (R177, R179). -/
def CalTable.start (t : CalTable) (segment : Nat) : Nat :=
  match t with
  | .widths => 128 * segment
  | .mask => 1600 + 800 * segment
  | .conditioning => 3200

/-- The words of a segment (R179). -/
def CalTable.words (t : CalTable) (segment : Nat) : Nat :=
  match t with
  | .widths => if segment = 12 then 64 else 128
  | .mask => 800
  | .conditioning => 7

/-- The segment's place among the 16 of the working copy (R179). -/
def CalTable.segmentIndex (t : CalTable) (segment : Nat) : Nat :=
  match t with
  | .widths => segment
  | .mask => 13 + segment
  | .conditioning => 15

/-- The table and segment of a place among the 16. -/
def segmentAt (index : Nat) : CalTable × Nat :=
  if index < 13 then (.widths, index) else if index < 15 then (.mask, index - 13) else (.conditioning, 0)

/-- Whether the word of a position holds one of its values (R177). -/
def wordLegal (position w : Nat) : Bool :=
  if position ≤ 1600 then 500 ≤ w && w ≤ 4000
  else if position ≤ 3200 then w ≤ 2
  else if position = 3201 then w ≤ 1023
  else if position = 3202 then w ≤ 65535
  else if position = 3203 then 1 ≤ w && w ≤ 4095
  else if position = 3204 then w ≤ 1
  else if position = 3205 then w ≤ 15
  else if position = 3206 then w ≤ 15
  else w ≤ 1

/-- The 2-byte words of segment data. -/
def wordsOf : Nat → List Byte → List Nat
  | 0, _ => []
  | k + 1, b => fieldAt 0 2 b :: wordsOf k (b.drop 2)

/-- The check of each word from a position on, with what BAD_VALUE names (R180, R209): the cell, or the field's place. -/
def wordChecks (t : CalTable) (start : Nat) : Nat → List Nat → List (Bool × Nat)
  | _, [] => []
  | k, w :: rest =>
    let named :=
      match t with
      | .widths => start + k
      | .mask => start + k - 1600
      | .conditioning => detailOf (k + 1) 0
    (wordLegal (start + k + 1) w, named) :: wordChecks t start (k + 1) rest

/-- The pitch of a CONDITIONING segment lies in 500 to 20,000 µm (R36, R180); it is named as PPL, the third field. -/
def pitchCheck (words : List Nat) : Bool × Nat :=
  let pitch := words.getD 2 0 * (words.getD 0 0 * 65536 + words.getD 1 0)
  (32768000 ≤ pitch && pitch ≤ 1310720000, detailOf 3 0)

/-- Test 6 of R180. -/
def segmentRefusal (t : CalTable) (segment : Nat) (words : List Nat) : Option Nat :=
  firstBad (wordChecks t (t.start segment) 0 words ++ (if t = .conditioning then [pitchCheck words] else []))

/-- A word as a READ shows it: a blank word is 0xFFFF (R210). -/
def wordBytes (w : Option Nat) : List Byte := bytesOf 2 (w.getD 65535)

/-! ### Requests as messages (R209, R212) -/

/-- The LOAD command that a LOAD message of 2 or more bytes names by its table byte (R218). -/
def loadCommand (message : List Byte) : Instr :=
  let table := byteAt 0 message
  let segment := byteAt 1 message
  let data := message.drop 2
  if table = tableWidths then .loadWidths segment data
  else if table = tableMask then .loadMask segment data
  else if table = tableConditioning then .loadConditioning segment data
  else if table = tableTerms then .loadTerms segment data
  else if table = tableHeads then .loadHeads segment data
  else if table = tableInputs then .loadInputs segment data
  else .loadBadTable table segment data

/-- The READ command that an area byte names (R219). -/
def readCommand (area segment : Byte) : Instr :=
  if area = tableWidths then .readWidths segment
  else if area = tableMask then .readMask segment
  else if area = tableConditioning then .readConditioning segment
  else if area = tableTerms then .readTerms segment
  else if area = tableHeads then .readHeads segment
  else if area = tableInputs then .readInputs segment
  else if area = areaRegions then .readRegions segment
  else if area = areaRecords then .readRecords segment
  else if area = areaQueues then .readQueues segment
  else .readBadArea area segment

/-- Whether a table byte names a table that a LOAD can take (R218). -/
def loadable (table : Byte) : Bool := table.toNat ≤ 5

/-- Whether an area byte names an area that a READ can take (R219). -/
def readable (area : Byte) : Bool := area.toNat ≤ 5 || (8 ≤ area.toNat && area.toNat ≤ 10)

def wordAt (offset : Nat) (message : List Byte) : Word32 := BitVec.ofNat 32 (fieldAt offset 4 message)

/-- The command of a request message of five bytes on a flag word (R209, R222). -/
def flagsCommand (set : Bool) (message : List Byte) : Instr :=
  let selector := byteAt 0 message
  let mask := wordAt 1 message
  if set then (if selector = 1 then .setFlagsEventMask mask else .setFlagsControl selector mask)
  else (if selector = 1 then .clearFlagsEventMask mask else .clearFlagsControl selector mask)

/-- Tests 2 and 3 of R212: the message length that a request kind must have, as (least, greatest), or none. -/
def requestLength (kind : Byte) : Option (Nat × Nat) :=
  if kind = kindQuery ∨ kind = kindStart ∨ kind = kindStop ∨ kind = kindAckFault ∨ kind = kindLockNext ∨
      kind = kindClearCounters ∨ kind = kindFlush ∨ kind = kindLineReset then some (0, 0)
  else if kind = kindLoad then some (2, 4080)
  else if kind = kindCommitCal then some (4, 4)
  else if kind = kindRead then some (2, 2)
  else if kind = kindSetFlags ∨ kind = kindClearFlags then some (5, 5)
  else if kind = kindHeadEnable then some (2, 2)
  else if kind = kindClearStall ∨ kind = kindClosePack then some (1, 1)
  else none

/-- A message that passes tests 2 and 3 of R212. -/
def messageLegal (kind : Byte) (length : Nat) : Bool :=
  match requestLength kind with
  | some (least, greatest) => least ≤ length && length ≤ greatest
  | none => false

/-- The command that a request message is: its kind and its message bytes, by the payloads of R209. -/
def requestCommand (kind : Byte) (message : List Byte) : Instr :=
  if !messageLegal kind message.length then .unknownRequest kind message
  else if kind = kindQuery then .query
  else if kind = kindStart then .start
  else if kind = kindStop then .stop
  else if kind = kindAckFault then .ackFault
  else if kind = kindFlush then .flush
  else if kind = kindLineReset then .lineReset
  else if kind = kindLoad then loadCommand message
  else if kind = kindCommitCal then .commitCal (wordAt 0 message)
  else if kind = kindRead then readCommand (byteAt 0 message) (byteAt 1 message)
  else if kind = kindSetFlags then flagsCommand true message
  else if kind = kindClearFlags then flagsCommand false message
  else if kind = kindHeadEnable then
    (if byteAt 1 message = 0 then .headEnableOff (byteAt 0 message)
    else .headEnableOn (byteAt 0 message) (byteAt 1 message))
  else if kind = kindClearStall then .clearStall (byteAt 0 message)
  else if kind = kindClosePack then .closePack (byteAt 0 message)
  else if kind = kindLockNext then .lockNext
  else .clearCounters

/-! ### Frames as commands (R195, R196, R198) -/

/-- The command that a good frame on the downstream port is (R196). -/
def downstreamCommand (f : Frame) : Instr :=
  if f.addr = targetPart then
    (if f.kind = kindLoad then .loadPart f.payload else requestCommand f.kind f.payload)
  else if f.addr = targetBar then .barForwardFrame f.kind f.payload
  else .badTargetFrame f.addr f.kind f.payload

/-- The command that a good frame on the upstream port is (R198). -/
def upstreamCommand (f : Frame) : Instr :=
  if f.kind = kindLine then .lineFrame f.addr f.payload else .barReplyFrame f.kind f.addr f.payload

/-- The command that the bytes after a start delimiter come to on a port (R195, R196, R198); of a frame that is not good, the
bytes as they come on the wire. -/
def frameCommand (port : Port) (bytes : List Byte) : Instr :=
  match judge bytes with
  | .good f =>
    match port with
    | .upstream => upstreamCommand f
    | .downstream => downstreamCommand f
  | _ => .discardedFrame port (startDelimiter :: bytes)

end Sys2Proof.Machine
end

