-- ==== Sys2Proof/Machine/Calibration.lean ====
section
/-!
DEFINITION. Calibration custody (chapter 9): the check sum, the working copy, commits and their ends, the cut-off store,
the power-on load and the lock.
-/

namespace Sys2Proof.Machine

def topAudit : Nat := 4294967295

/-! ### Sets (R177, R178) -/

/-- The weighted sum of words from a position on; a blank word counts as 0 (R178, R180). -/
def weightedSum : Nat → List (Option Nat) → Nat
  | _, [] => 0
  | position, w :: rest => position * w.getD 0 + weightedSum (position + 1) rest

/-- The check sum of a set (R178). -/
def checkSum (set : List (Option Nat)) : Word32 := BitVec.ofNat 32 (weightedSum 1 set)

/-- Whether every word from a position on holds one of its values; a blank word holds none (R177). -/
def wordsLegal : Nat → List (Option Nat) → Bool
  | _, [] => true
  | _, none :: _ => false
  | position, some w :: rest => wordLegal position w && wordsLegal (position + 1) rest

/-- Whether a set is the one a seal was written for: every word legal and the check sum the seal's (R186). -/
def matchesSeal (set : List (Option Nat)) : Option Seal → Bool
  | none => false
  | some s => wordsLegal 1 set && checkSum set == s.checkSum

/-- Prefix sums of widths (section 0.6, R35); a blank word counts as 0. -/
def prefixFrom : Nat → List (Option Nat) → List Nat
  | sum, [] => [sum]
  | sum, w :: rest => sum :: prefixFrom (sum + w.getD 0) rest

def prefixSumsOf (set : List (Option Nat)) : List Nat := prefixFrom 0 (set.take 1600)

/-! ### The working copy (R179, R180) -/

/-- The words of a segment in a set. -/
def segmentWords (t : CalTable) (segment : Nat) (set : List (Option Nat)) : List (Option Nat) :=
  (set.drop (t.start segment)).take (t.words segment)

/-- Words written over a set from a place on. -/
def writeWords (start : Nat) (words : List Nat) (set : List (Option Nat)) : List (Option Nat) :=
  set.take start ++ words.map some ++ set.drop (start + words.length)

/-- A segment written into the working copy, which becomes LOADED (R180). -/
def Ccu.loadSegment (t : CalTable) (segment : Nat) (words : List Nat) (c : Ccu) : Ccu :=
  { c with
    working := writeWords (t.start segment) words c.working
    segments := c.segments.set (t.segmentIndex segment) .loaded }

/-- A LOAD naming WIDTHS, MASK or CONDITIONING, by the tests of R180. -/
def Device.loadCal (t : CalTable) (segment : Byte) (data : List Byte) (d : Device) : Reply × Device :=
  let seg := segment.toNat
  let words := wordsOf (t.words seg) data
  if d.lct.lineState ≠ .idle then (.refuse .wrongState reasonLineState, d)
  else if d.ccu.lock.locked then (.refuse .locked 0, d)
  else if d.ccu.committing then (.refuse .notNow 0, d)
  else if t.segments ≤ seg then (.refuse .badSegment 0, d)
  else if data.length ≠ 2 * t.words seg then (.refuse .badFrame 0, d)
  else
    match segmentRefusal t seg words with
    | some detail => (.refuse .badValue detail, d)
    | none =>
      let c := d.ccu.loadSegment t seg words
      (.ok ([t.code, segment] ++ bytesOf 4 (checkSum c.working).toNat), { d with ccu := c })

/-! ### Commits (R181 to R185) -/

/-- The target seal cell: the one that does not hold a seal with the present audit count, cell 0 when neither does (R182). -/
def Ccu.target (c : Ccu) : Nat :=
  match c.store.seal0 with
  | some s => if s.count = c.audit then 1 else 0
  | none => 0

def CalStore.setSeal (cell : Nat) (s : Option Seal) (st : CalStore) : CalStore :=
  if cell = 0 then { st with seal0 := s } else { st with seal1 := s }

/-- Words erased, from a position on (R182, stage 1): a blank word stays blank, and another is blank when the erase has reached it. -/
def eraseFrom (draws : Nat) : Nat → List (Option Nat) → List (Option Nat)
  | _, [] => []
  | position, w :: rest =>
    (if Config.wordErased draws position then none else w) :: eraseFrom draws (position + 1) rest

/-- The set area while it is erased: from the first erase on some word of it is blank (R182); all are, where the free erase has
reached none (log 7). -/
def erasedArea (draws : Nat) (area : List (Option Nat)) : List (Option Nat) :=
  let mix := eraseFrom draws 1 area
  if mix.any Option.isNone then mix else mix.map fun _ => none

/-- A set with words in position order, the rest blank (R182, stage 2). -/
def firstWords (n : Nat) (set : List (Option Nat)) : List (Option Nat) :=
  set.take n ++ (set.drop n).map fun _ => none

/-- The set area with n words of the working copy written. Until the seal is written it matches no seal (R182): where it would, its
last word is not in place yet (log 7). -/
def Ccu.writtenArea (n : Nat) (c : Ccu) : List (Option Nat) :=
  let area := firstWords n c.working
  if matchesSeal area c.store.seal0 || matchesSeal area c.store.seal1 then firstWords (c.working.length - 1) c.working
  else area

/-- The store erases on (R182, stage 1). -/
def Ccu.eraseOn (draws : Nat) (c : Ccu) : Ccu :=
  { c with stage := .erasing, store := { c.store with setArea := erasedArea draws c.store.setArea } }

/-- The store has n words written (R182, stage 2). -/
def Ccu.writeOn (n : Nat) (c : Ccu) : Ccu :=
  { c with stage := .writing n, store := { c.store with setArea := c.writtenArea n } }

/-- The store works on through the stages of R182, by as much as it does in a millisecond: a free value, drawn by the model's counter
(log 7). -/
def Ccu.storeWorks (draws : Nat) (c : Ccu) : Ccu :=
  match c.stage with
  | .resting => c
  | .erasing =>
    if Config.eraseEnds draws then c.writeOn (min (Config.wordsWritten draws) c.working.length) else c.eraseOn draws
  | .writing n => c.writeOn (max n (min (Config.wordsWritten draws) c.working.length))

/-- The first UNSET segment in the order of R179. -/
def Ccu.firstUnset (c : Ccu) : Option Nat := (List.range 16).find? fun i => c.segments.getD i .unset == .unset

/-- A commit starts (R182), and with it the erase of its target seal and of the set area (log 7). -/
def Device.startCommit (d : Device) : Device :=
  { d with
    ccu := { d.ccu with
      committing := true
      commitTimer := Timer.start 400 false
      store := d.ccu.store.setSeal d.ccu.target none }.eraseOn d.draws
    draws := d.draws + 1 }

/-- COMMIT_CAL by the tests of R181, with the replies of R220. -/
def Device.commitCal (sum : Word32) (d : Device) : Reply × Device :=
  if d.lct.lineState ≠ .idle then (.refuse .wrongState reasonLineState, d)
  else if d.ccu.lock.locked || d.ccu.audit == topAudit then (.refuse .locked 0, d)
  else if d.ccu.committing then (.refuse .notNow 0, d)
  else
    match d.ccu.firstUnset with
    | some i => (.refuse .badValue (detailOf (segmentAt i).1.code.toNat (segmentAt i).2), d)
    | none =>
      if sum ≠ checkSum d.ccu.working then
        (⟨.badChecksum, 0, bytesOf 4 (checkSum d.ccu.working).toNat⟩, d)
      else (.ok ([1] ++ bytesOf 4 d.ccu.audit ++ bytesOf 1 d.ccu.target), d.startCommit)

/-- The lock promotion (R188): LOCKED is set when LOCK_NEXT is, LOCK_NEXT is cleared and the lock cell is written. -/
def Ccu.promoteLock (c : Ccu) : Ccu :=
  { c with
    store := { c.store with lockCell := some ⟨false, c.lock.locked || c.lock.lockNext⟩ }
    promotionPending := false }

/-- The promotion held back by a LINE_RESET during a commit, made at the commit's end (R188). -/
def Ccu.promoteIfPending (c : Ccu) : Ccu := if c.promotionPending then c.promoteLock else c

/-- The store after a seal write that completed: the new set, and its seal in the target cell (R182, R185). -/
def Ccu.sealedStore (c : Ccu) : CalStore :=
  { c.store.setSeal c.target (some ⟨c.audit + 1, checkSum c.working⟩) with setArea := c.working }

/-- The successful end of a commit in the CCU, stages 1 to 5 of R183. -/
def Ccu.completeCommit (c : Ccu) : Ccu :=
  { c with
    store := c.sealedStore
    stage := .resting
    commitTimer := none
    audit := c.audit + 1
    active := c.working
    valid := true
    prefixSums := prefixSumsOf c.working
    segments := List.replicate 16 .same
    lastResult := .done
    committing := false }

/-- The scan divider is loaded with PPL, or 4095 while the active set is marked invalid (R9). -/
def Device.loadDivider (d : Device) : Device := { d with bpu := { d.bpu with divider := d.ccu.dividerLoad } }

/-- The seal write completes (R183); with no commit in flight there is none. -/
def Device.sealWriteComplete (d : Device) : Device :=
  if d.ccu.committing then
    let d := { d with ccu := d.ccu.completeCommit }.loadDivider
    { d with ccu := d.ccu.promoteIfPending }
  else d

/-- A commit fails (R184): the store stops at the stage it has reached, and a seal write that is stopped leaves its cell blank. -/
def Ccu.failCommit (c : Ccu) : Ccu :=
  { c with
    store := c.store.setSeal c.target none
    stage := .resting
    commitTimer := none
    lastResult := .failed
    committing := false }

/-- The commit timer expires before the seal write completes (R184). -/
def Device.commitTimerExpiry (d : Device) : Device :=
  if d.ccu.committing && d.ccu.commitTimer.due then { d with ccu := d.ccu.failCommit.promoteIfPending } else d

/-- The store that a loss of power or the reset pin leaves (R185, R192): where a commit stands, with its target seal blank; where every
word was written, the seal may have been written too, whether or not its completion was taken (log 24). -/
def Device.storeAfterCut (d : Device) : CalStore :=
  if d.ccu.committing then
    (if d.ccu.stage = .writing d.ccu.working.length ∧ Config.sealWritten d.draws then d.ccu.sealedStore
    else d.ccu.store.setSeal d.ccu.target none)
  else d.ccu.store

/-! ### The power-on load (R186, R188) -/

/-- The higher audit count of the seals present, or 0 (R186). -/
def CalStore.auditCount (st : CalStore) : Nat :=
  max (match st.seal0 with | some s => s.count | none => 0) (match st.seal1 with | some s => s.count | none => 0)

/-- A seal with the count, if one is present. -/
def CalStore.sealOf (st : CalStore) (count : Nat) : Option Seal :=
  match st.seal0, st.seal1 with
  | some s, other => if s.count = count then some s else other.filter fun x => x.count == count
  | none, other => other.filter fun x => x.count == count

/-- The store is valid (R186, step 2). -/
def CalStore.isValid (st : CalStore) : Bool := matchesSeal st.setArea (st.sealOf st.auditCount)

/-- A strap sampled FITTED clears LOCKED and writes the lock cell (R188). -/
def Ccu.applyStrap (fitted : Bool) (c : Ccu) : Ccu :=
  { c with
    strapFitted := fitted
    store := if fitted then { c.store with lockCell := some ⟨c.lock.lockNext, false⟩ } else c.store }

/-- Steps 1 to 5 of the load in INIT (R186). The words of an UNSET segment, which the manual calls not usable, are blank (log 17). -/
def Ccu.load (fitted : Bool) (c : Ccu) : Ccu :=
  let valid := c.store.isValid
  { c with
    audit := c.store.auditCount
    active := c.store.setArea
    valid := valid
    prefixSums := prefixSumsOf c.store.setArea
    working := if valid then c.store.setArea else c.store.setArea.map fun _ => none
    segments := List.replicate 16 (if valid then .same else .unset) }.promoteLock.applyStrap fitted

/-- A LOCK_NEXT request sets LOCK_NEXT and writes the lock cell (R188). -/
def Ccu.lockNext (c : Ccu) : Ccu :=
  { c with store := { c.store with lockCell := some ⟨true, c.lock.locked⟩ } }

/-- The lock flags as one byte: bit 0 LOCK_NEXT, bit 1 LOCKED (R209). -/
def LockFlags.byte (l : LockFlags) : Byte := BitVec.ofNat 8 (bitsOf [l.lockNext, l.locked])

/-- What a LINE_RESET does to the lock: the promotion is made, or held back while a commit is in flight (R188, R192). -/
def Ccu.lineReset (c : Ccu) : Ccu := if c.committing then { c with promotionPending := true } else c.promoteLock

end Sys2Proof.Machine
end

