-- ==== Sys2Proof/Machine/Requests.lean ====
section
/-!
DEFINITION. The request decoder (chapter 11): the tests of R212, what each request does in its block with its reply, the
requests that wait for the tracker (R214), LINE_RESET of every block, and the load assembly (R200).
-/

namespace Sys2Proof.Machine

/-! ### Taking a request (R212, R213) -/

/-- Test 1 of R212 fails: the reply FIFO is full, or the owed list is not empty. -/
def Device.noReplyPlace (d : Device) : Bool := d.replyFull || !d.dec.owed.isEmpty

/-- A request that does not wait: owed a NOT_NOW for want of a reply place, or performed, with its reply placed as the
newest within the event (R212, R213). -/
def Device.answer (kind : Byte) (perform : Device → Reply × Device) (d : Device) : Device :=
  if d.noReplyPlace then d.owe kind
  else (perform d).2.placeReply ((perform d).1.message kind)

/-! ### The line state (R159, R160, R164, R215) -/

/-- The line state as the one data byte of an OK reply (R215). -/
def Device.lineStateReply (d : Device) : Reply := .ok [d.lct.lineState.code]

/-- START by the tests of R159. -/
def Device.requestStart (d : Device) : Reply × Device :=
  if d.lct.lineState = .running then (d.lineStateReply, d)
  else if d.lct.lineState = .faulted then (.refuse .wrongState reasonLineState, d)
  else
    match d.startRefusal with
    | some r => (r, d)
    | none => (d.runLine.lineStateReply, d.runLine)

/-- What STOP does (R160). -/
def Device.stopLine (d : Device) : Device :=
  match d.lct.lineState with
  | .running => d.pauseLine .stop false
  | .paused => { d with lct := { d.lct with haltCause := .stop } }
  | .init | .idle | .faulted => d

def Device.requestStop (d : Device) : Reply × Device := (d.stopLine.lineStateReply, d.stopLine)

/-- ACK_FAULT (R164). -/
def Device.requestAckFault (d : Device) : Reply × Device :=
  if d.lct.lineState ≠ .faulted then (.refuse .wrongState reasonLineState, d)
  else if d.lct.estop then (.refuse .wrongState reasonEstopActive, d)
  else (d.leaveFault.lineStateReply, d.leaveFault)

/-! ### Tables (R102 to R106, R113, R168, R218) -/

/-- Whether a slot's accumulator is FILLING. -/
def Device.filling (d : Device) (n : Fin 4) : Bool := (d.slot n).acc.isSome

/-- Test 5 of R102: a FILLING slot has its close buffer HELD (R105). -/
def Device.bufferNeeded (d : Device) : Bool := headNumbers.any fun n => (d.slot n).acc.isSome && (d.slot n).buf.isSome

/-- A TERMS load performed (R106): packs, terms, generation. -/
def Device.takeTerms (t : Terms) (d : Device) : Device :=
  let d := d.closeForTerms
  { d with hev := { d.hev with terms := some t, generation := d.hev.generation + 1 } }

/-- A TERMS load by the tests of R102. -/
def Device.loadTerms (segment : Byte) (data : List Byte) (d : Device) : Reply × Device :=
  if segment ≠ 0 then (.refuse .badSegment 0, d)
  else if data.length ≠ termsLength then (.refuse .badFrame 0, d)
  else
    match termsRefusal data with
    | some detail => (.refuse .badValue detail, d)
    | none =>
      if d.bufferNeeded then (.refuse .notNow 0, d)
      else
        (.ok ([tableTerms, segment] ++ bytesOf 4 (d.hev.generation + 1).toNat ++
            [BitVec.ofNat 8 (bitsOf (headNumbers.map d.filling))]),
          d.takeTerms (termsAt data))

/-- A HEADS load performed (R113). -/
def Device.takeHeads (t : List HeadEntry) (d : Device) : Device :=
  { d with sth := ⟨some t, List.zipWith Head.afterLoad t d.sth.heads⟩ }

/-- A HEADS load by the tests of R113. -/
def Device.loadHeads (segment : Byte) (data : List Byte) (d : Device) : Reply × Device :=
  if d.lct.lineState ≠ .idle then (.refuse .wrongState reasonLineState, d)
  else if segment ≠ 0 then (.refuse .badSegment 0, d)
  else if data.length ≠ headsLength then (.refuse .badFrame 0, d)
  else
    match headsRefusal data with
    | some detail => (.refuse .badValue detail, d)
    | none => (.ok [tableHeads, segment], d.takeHeads (headsAt data))

/-- An INPUTS load by the tests of R168. -/
def Device.loadInputs (segment : Byte) (data : List Byte) (d : Device) : Reply × Device :=
  if d.lct.lineState ≠ .idle ∧ d.lct.lineState ≠ .paused then (.refuse .wrongState reasonLineState, d)
  else if segment ≠ 0 then (.refuse .badSegment 0, d)
  else if data.length ≠ inputsLength then (.refuse .badFrame 0, d)
  else
    match inputsRefusal data with
    | some detail => (.refuse .badValue detail, d)
    | none =>
      (.ok [tableInputs, segment, (d.takeInputsTable (inputsAt data)).lct.lineState.code],
        d.takeInputsTable (inputsAt data))

/-- A LOAD or READ naming no table or area it can take (R218, R219). -/
def Device.badTable (d : Device) : Reply × Device := (.refuse .badTable 0, d)

/-- A message refused by test 2 or 3 of R212. -/
def Device.badMessage (d : Device) : Reply × Device := (.refuse .badFrame 0, d)

/-- A LOAD message performed by the owner of its table (R218); one shorter than 2 bytes fails test 3 of R212. -/
def Device.performLoad (message : List Byte) (d : Device) : Reply × Device :=
  if message.length < 2 then d.badMessage
  else
    let table := byteAt 0 message
    let segment := byteAt 1 message
    let data := message.drop 2
    if table = tableWidths then d.loadCal .widths segment data
    else if table = tableMask then d.loadCal .mask segment data
    else if table = tableConditioning then d.loadCal .conditioning segment data
    else if table = tableTerms then d.loadTerms segment data
    else if table = tableHeads then d.loadHeads segment data
    else if table = tableInputs then d.loadInputs segment data
    else d.badTable

/-! ### Heads, packs and the lock (R221) -/

/-- A head or slot number in range. -/
def numberOf (b : Byte) : Option (Fin 4) := if h : b.toNat < 4 then some ⟨b.toNat, h⟩ else none

/-- BAD_VALUE of R221: the field's place and the value received. -/
def badField (place : Nat) (value : Byte) : Reply := .refuse .badValue (detailOf place value.toNat)

def Device.headEnableReply (n : Fin 4) (cancelled : Nat) (d : Device) : Reply :=
  .ok ([BitVec.ofNat 8 n.val, (d.head n).state.code] ++ bytesOf 1 cancelled ++ [indication (d.head n).disablePending])

/-- The entries that a HEAD_ENABLE off cancels itself (R134, R221). -/
def Head.cancelledByOff (h : Head) : Nat :=
  match h.state with
  | .disabled | .striking => 0
  | .idle | .setting | .ready | .recovering | .stalled => h.queue.length

/-- HEAD_ENABLE with off (R134, R221). -/
def Device.requestHeadOff (head : Byte) (d : Device) : Reply × Device :=
  match numberOf head with
  | none => (badField 1 head, d)
  | some n => ((d.headOff n).headEnableReply n (d.head n).cancelledByOff, d.headOff n)

/-- HEAD_ENABLE with on (R135, R221). -/
def Device.requestHeadOn (head on : Byte) (d : Device) : Reply × Device :=
  match numberOf head with
  | none => (badField 1 head, d)
  | some n =>
    if on ≠ 1 then (badField 2 on, d)
    else if !(d.headEntry n).enable then (badField 3 head, d)
    else ((d.headOn n).headEnableReply n 0, d.headOn n)

/-- CLEAR_STALL (R126, R221). -/
def Device.requestClearStall (head : Byte) (d : Device) : Reply × Device :=
  match numberOf head with
  | none => (badField 1 head, d)
  | some n => (.ok [head, ((d.clearStall n).head n).state.code], d.clearStall n)

/-- CLOSE_PACK (R149, R221). -/
def Device.requestClosePack (slot : Byte) (d : Device) : Reply × Device :=
  match numberOf slot with
  | none => (badField 1 slot, d)
  | some n =>
    match (d.slot n).acc with
    | none => (.ok ([slot, 0] ++ bytesOf 4 0 ++ bytesOf 2 0), d)
    | some p =>
      if (d.slot n).buf.isSome then (.refuse .notNow 0, d)
      else (.ok ([slot, 1] ++ bytesOf 4 p.number.toNat ++ bytesOf 2 p.hides), d.closePack n .shortOnly)

/-- LOCK_NEXT (R188, R221). -/
def Device.requestLockNext (d : Device) : Reply × Device :=
  (.ok [d.ccu.lockNext.lock.byte], { d with ccu := d.ccu.lockNext })

/-! ### The flag words (R222, R223) -/

/-- The lowest bit of a mask within a set of bits, if one is set. -/
def lowestBit (mask : Word32) (bits : List Nat) : Option Nat := bits.find? fun i => mask.getLsbD i

/-- The bits that a mask on the control word may not carry: those that name no field, and under CLEAR_FLAGS the rate (R222). -/
def controlForbidden (set : Bool) : List Nat :=
  (List.range 32).filter fun i => (3 ≤ i && i ≤ 7) || (15 ≤ i) || (!set && 8 ≤ i && i ≤ 14)

def maskForbidden : List Nat := [27, 28, 29, 30, 31]

/-- A flag under SET_FLAGS or CLEAR_FLAGS: changed when its mask bit is set, kept when it is clear (R222). -/
def changeFlag (set bit old : Bool) : Bool := if bit then set else old

/-- The control word after a request (R222). -/
def Control.change (set : Bool) (mask : Word32) (c : Control) : Control where
  fwdLines := changeFlag set (mask.getLsbD 0) c.fwdLines
  autoResume := changeFlag set (mask.getLsbD 1) c.autoResume
  freeRun := changeFlag set (mask.getLsbD 2) c.freeRun
  rate :=
    let rate := (mask.extractLsb' 8 7).toNat
    if set && rate != 0 then rate else c.rate

/-- SET_FLAGS or CLEAR_FLAGS on the control word, tests 2 to 4 (R222). -/
def Device.changeControl (set : Bool) (mask : Word32) (d : Device) : Reply × Device :=
  match lowestBit mask (controlForbidden set) with
  | some bit => (.refuse .badValue (detailOf bit 0), d)
  | none =>
    let c := d.lct.control.change set mask
    if 64 < c.rate || c.rate = 0 then (.refuse .badValue (detailOf 8 0), d)
    else if c.freeRun ≠ d.lct.control.freeRun ∧ d.lct.lineState ≠ .idle then
      (.refuse .wrongState reasonLineState, d)
    else (.ok ([0] ++ bytesOf 4 c.word), { d with lct := { d.lct with control := c } })

/-- The mask settings after a request (R223). -/
def Lct.changeMask (set : Bool) (mask : Word32) (l : Lct) : Lct :=
  { l with mask := (withIndex 0 l.mask).map fun x => changeFlag set (mask.getLsbD x.1) x.2 }

/-- SET_FLAGS or CLEAR_FLAGS on the event-mask word (R222, R223): an EVENT frame that an unmasking calls for is placed
before the reply is built. -/
def Device.changeEventMask (set : Bool) (mask : Word32) (d : Device) : Reply × Device :=
  match lowestBit mask maskForbidden with
  | some bit => (.refuse .badValue (detailOf bit 1), d)
  | none =>
    let d := { d with lct := d.lct.changeMask set mask }
    let d := if set then d else d.askEventPlace
    (.ok ([1] ++ bytesOf 4 d.lct.maskWord), d)

/-- A SET_FLAGS or CLEAR_FLAGS request by its selector (R222). -/
def Device.changeFlags (set : Bool) (selector : Byte) (mask : Word32) (d : Device) : Reply × Device :=
  if selector = 0 then d.changeControl set mask
  else if selector = 1 then d.changeEventMask set mask
  else (badField 0 selector, d)

/-! ### CLEAR_COUNTERS (R225) -/

def Device.clearCounters (d : Device) : Device :=
  { d with
    lcn := { d.lcn with missed := 0, stray := 0, malformed := 0 }
    rtk := { d.rtk with linesProcessed := 0 }
    hev := { d.hev with scraps := 0, discarded := 0 }
    lnk := { d.lnk with badFrames := 0, forwardDrops := 0, upstreamDrops := 0, incompleteLoads := 0 } }

def Device.requestClearCounters (d : Device) : Reply × Device := (.ok [], d.clearCounters)

/-! ### LINE_RESET (R166, R217) -/

/-- The BPU at LINE_RESET (R19), with the divider load of the active set (R9). -/
def Bpu.lineReset (load : Nat) (b : Bpu) : Bpu :=
  { b with position := 0, mark := 0, direction := .forward, divider := load, nextLine := 0, outstanding := [],
           pauseTimer := none }

/-- The LCN at LINE_RESET (R40). -/
def Lcn.lineReset (c : Lcn) : Lcn :=
  { c with expected := 0, trailing := 0, overflow := 0, lastDeclared := ⟨0, 0⟩, queue := [], lastStatus := none }

/-- The RTK at LINE_RESET (R71). -/
def Rtk.lineReset (k : Rtk) : Rtk := { Rtk.reset with linesProcessed := k.linesProcessed, waiting := k.waiting }

/-- The records held (R72). -/
def Hev.held (h : Hev) : Nat := (h.store.filter Option.isSome).length

/-- The HEV at LINE_RESET (R96). -/
def Hev.lineReset (h : Hev) : Hev :=
  { h with store := List.replicate 24 none, discarded := sat16 h.discarded h.held }

/-- Every block at a LINE_RESET that is performed (R166, R217). -/
def Device.resetLine (d : Device) : Device :=
  { d with
    bpu := d.bpu.lineReset d.ccu.dividerLoad
    lcn := d.lcn.lineReset
    rtk := d.rtk.lineReset
    hev := d.hev.lineReset
    sth := { d.sth with heads := d.sth.heads.map Head.lineReset }
    pku := { d.pku with slots := List.replicate 4 ⟨none, none⟩ }
    lct := { d.lct with lineState := .idle }
    ccu := d.ccu.lineReset }

/-- LINE_RESET when the tracker serves it (R166, R217). -/
def Device.performLineReset (d : Device) : Reply × Device :=
  if d.lct.lineState = .idle ∨ d.lct.lineState = .paused then (.ok (bytesOf 1 d.hev.held), d.resetLine)
  else (.refuse .wrongState reasonLineState, d)

/-! ### FLUSH and READ of REGIONS (R67, R69, R216) -/

/-- FLUSH when the tracker serves it (R216). -/
def Device.performFlush (d : Device) : Reply × Device :=
  if d.lct.lineState ≠ .paused then (.refuse .wrongState reasonLineState, d)
  else if !d.lcn.queue.isEmpty then (.refuse .notNow 0, d)
  else (.ok [], d.flushRegions)

def RegionKind.code : RegionKind → Byte
  | .leather => 0
  | .gap => 1

def RegionState.code : RegionState → Byte
  | .free => 0
  | .opened => 1
  | .merged => 2
  | .closedWait => 3

/-- A table entry as READ of REGIONS shows it, 56 bytes (R210). -/
def Region.bytes (r : Region) : List Byte :=
  [r.kind.code, r.state.code] ++ bytesOf 1 r.parent ++
    bytesOf 1 (bitsOf [r.flags.exhausted, r.flags.edge, r.flags.holeOverflow, r.flags.truncated, r.flags.overrange,
      r.openTop, r.anchor.isSome]) ++
    bytesOf 4 r.firstLine.toNat ++ bytesOf 4 r.lastLine.toNat ++ bytesOf 2 r.minCell ++ bytesOf 2 r.maxCell ++
    bytesOf 8 r.area ++ bytesOf 6 r.born.toNat ++ bytesOf 4 r.epoch.toNat ++ bytesOf 1 r.holes.length ++
    bytesOf 2 r.holeOverCount ++ bytesOf 2 r.interpolated ++ anchorBytes r.anchor ++ [0]

/-- READ of REGIONS when the tracker serves it (R69). -/
def Device.performReadRegions (segment : Byte) (d : Device) : Reply × Device :=
  if 8 ≤ segment.toNat then (.refuse .badSegment 0, d)
  else
    (.ok ([areaRegions, segment] ++
        ((d.rtk.table.drop (8 * segment.toNat)).take 8).flatMap Region.bytes), d)

/-! ### Requests that wait for the tracker (R47, R65, R214) -/

def Waiting.kind : Waiting → Byte
  | .flush => kindFlush
  | .lineReset => kindLineReset
  | .readRegions _ => kindRead

def Device.performWaiting (w : Waiting) (d : Device) : Reply × Device :=
  match w with
  | .flush => d.performFlush
  | .lineReset => d.performLineReset
  | .readRegions segment => d.performReadRegions segment

/-- A waiting request is served: performed, its reservation released and its reply placed within one event (R214). -/
def Device.serve (w : Waiting) (d : Device) : Device :=
  let r := (d.performWaiting w).1
  let d := (d.performWaiting w).2
  { d with dec := { d.dec with reservations := d.dec.reservations - 1 } }.placeReply (r.message w.kind)

/-- The oldest waiting request leaves the list and is served (R47). -/
def Device.serveOldest (d : Device) : Device :=
  match d.rtk.waiting with
  | [] => d
  | w :: rest => { d with rtk := { d.rtk with waiting := rest } }.serve w

/-- The tracker is between lines: it performs no queue entry (R47). -/
def Device.betweenLines (d : Device) : Bool := d.rtk.work.isNone

/-- Offer walks while retry pending is set (R65). Each walk that sets it again has taken an entry, and there are 64 of them,
so 65 walks are enough. -/
def Device.walkPending : Nat → Device → Device
  | 0, d => d
  | n + 1, d => if d.rtk.retryPending then Device.walkPending n d.offerWalk else d

/-- The tracker between lines: the walks that are pending, then the waiting requests, oldest first, with the walks that
each brings (R47). -/
def Device.settleFor : Nat → Device → Device
  | 0, d => d.walkPending 65
  | n + 1, d =>
    let d := d.walkPending 65
    match d.rtk.waiting with
    | [] => d
    | _ => Device.settleFor n d.serveOldest

def Device.settle (d : Device) : Device := d.settleFor d.rtk.waiting.length

/-- A request that waits takes a reservation and joins the tracker's list; a tracker between lines serves it at once,
after those before it (R212, R214). -/
def Device.wait (w : Waiting) (d : Device) : Device :=
  if d.noReplyPlace then d.owe w.kind
  else
    let d := { d with
      dec := { d.dec with reservations := d.dec.reservations + 1 }
      rtk := { d.rtk with waiting := d.rtk.waiting ++ [w] } }
    if d.betweenLines then d.settle else d

/-- The tracker, between lines, serves its oldest waiting request when it is of the kind named, after any walk (R47). -/
def Device.serveKind (kind : Waiting → Bool) (d : Device) : Device :=
  match d.rtk.waiting with
  | [] => d
  | w :: _ => if d.betweenLines && kind w then (d.walkPending 65).serveOldest else d

def Waiting.isFlush : Waiting → Bool
  | .flush => true
  | .lineReset | .readRegions _ => false

def Waiting.isLineReset : Waiting → Bool
  | .lineReset => true
  | .flush | .readRegions _ => false

def Waiting.isReadRegions : Waiting → Bool
  | .readRegions _ => true
  | .flush | .lineReset => false

/-! ### The load assembly (R200) -/

/-- A whole LOAD message reaches the decoder. -/
def Device.takeLoad (message : List Byte) (d : Device) : Device :=
  d.answer kindLoad (Device.performLoad message)

def partIndex (b : Byte) : Nat := b.toNat % 16
def partLast (b : Byte) : Bool := b.msb

/-- A part finds the assembly EMPTY (R200). -/
def Device.openPart (part : Byte) (bytes : List Byte) (d : Device) : Device :=
  if partIndex part ≠ 0 then d.countAbandoned
  else if partLast part then d.takeLoad bytes
  else d.setAssembly (some ⟨1, bytes, Timer.start 50 false⟩)

/-- A part finds the assembly OPEN (R200). -/
def Device.nextPart (a : Assembly) (part : Byte) (bytes : List Byte) (d : Device) : Device :=
  if partIndex part = 0 then ((d.setAssembly none).countAbandoned).openPart part bytes
  else if partIndex part = a.next ∧ partLast part then (d.setAssembly none).takeLoad (a.bytes ++ bytes)
  else if partIndex part = a.next ∧ a.next < 15 then
    d.setAssembly (some ⟨a.next + 1, a.bytes ++ bytes, Timer.start 50 false⟩)
  else (d.setAssembly none).countAbandoned

/-- A LOAD frame routed to the assembly (R200); one without a part byte is a LOAD message of 0 bytes. -/
def Device.takePart (payload : List Byte) (d : Device) : Device :=
  match payload with
  | [] => d.takeLoad []
  | part :: bytes =>
    match d.lnk.assembly with
    | none => d.openPart part bytes
    | some a => d.nextPart a part bytes

/-- The part time-out of an OPEN assembly expires (R200). -/
def Device.partTimeout (d : Device) : Device :=
  match d.lnk.assembly with
  | some a => if a.timeout.due then (d.setAssembly none).countAbandoned else d
  | none => d

end Sys2Proof.Machine
end

