-- ==== Sys2Proof/Machine/Reports.lean ====
section
/-!
DEFINITION. What the station reads: the QUERY status block of 292 bytes, group by group (R17, R38, R68, R93, R139, R152,
R175, R190, R204, R210, R224), and the READ replies (R69, R94, R110, R114, R140, R168, R191, R210).
-/

namespace Sys2Proof.Machine

def Direction.code : Direction → Byte
  | .forward => 0
  | .reverse => 1

/-- A fixed-place field of an absent item, where no rule states what is sent: free (R206, log 10). -/
def absentBytes (n : Nat) (f : AbsentField) : List Byte := bytesOf n (Config.absentValue f)

/-! ### The status block (R210, R224) -/

/-- An outstanding entry, or the places of one that is absent; an absent position is sent as 0 (R17, R206). -/
def outstandingBytes (k : Nat) : Option Outstanding → List Byte
  | some o => bytesOf 4 o.line.toNat ++ bytesOf 6 o.pos.toNat
  | none => absentBytes 4 (.outstandingLine k) ++ bytesOf 6 0

/-- BPU group, 46 bytes (R17). -/
def Device.bpuGroup (d : Device) : List Byte :=
  let b := d.bpu
  bytesOf 6 b.position.toNat ++ bytesOf 6 b.mark.toNat ++ [b.direction.code, indication d.lct.control.freeRun] ++
    bytesOf 2 b.divider ++ bytesOf 4 b.nextLine.toNat ++ bytesOf 1 b.outstanding.length ++
    outstandingBytes 0 b.outstanding[0]? ++ outstandingBytes 1 b.outstanding[1]? ++
    [(match b.pauseTimer with | none => 255 | some t => BitVec.ofNat 8 (Timer.msLeft (some t)))] ++ bytesOf 4 b.uptime.toNat

def barStatusByte : Option BarStatus → Byte
  | some .clean => 0
  | some .dusty => 1
  | some .lampLow => 2
  | none => 255

/-- LCN group, 17 bytes (R38). -/
def Device.lcnGroup (d : Device) : List Byte :=
  let c := d.lcn
  bytesOf 4 c.expected.toNat ++ bytesOf 1 c.trailing ++ bytesOf 4 c.overflow ++ bytesOf 1 c.queue.length ++
    [barStatusByte c.lastStatus] ++ bytesOf 2 c.missed ++ bytesOf 2 c.stray ++ bytesOf 2 c.malformed

/-- How many entries are of a kind and state (R68). -/
def Rtk.count (k : Rtk) (p : Region → Bool) : Nat := (k.table.filter p).length

def Region.openLeather (r : Region) : Bool := r.kind == .leather && r.state == .opened
def Region.openGap (r : Region) : Bool := r.kind == .gap && r.state == .opened
def Region.waits (r : Region) : Bool := r.state == .closedWait

/-- RTK group, 16 bytes (R68). -/
def Device.rtkGroup (d : Device) : List Byte :=
  let k := d.rtk
  bytesOf 1 k.stack.length ++ bytesOf 1 (k.count Region.openLeather) ++ bytesOf 1 (k.count Region.openGap) ++
    bytesOf 1 (k.count Region.waits) ++ bytesOf 4 k.exhaustion.toNat ++ bytesOf 2 k.linesProcessed ++
    [indication k.prevLine.isSome] ++
    (match k.prevLine with | some o => bytesOf 4 o.line.toNat | none => absentBytes 4 .previousLine) ++
    [indication k.work.isSome]

def HideRecord.isPending (r : HideRecord) : Bool := r.disposition == .pending

/-- The records in one of the two states (R72, R93). -/
def Hev.recordsIn (h : Hev) (pending : Bool) : Nat :=
  (h.store.filter fun s => match s with | some r => r.isPending == pending | none => false).length

/-- HEV group, 16 bytes (R93). -/
def Device.hevGroup (d : Device) : List Byte :=
  let h := d.hev
  [indication h.terms.isSome] ++ bytesOf 4 h.generation.toNat ++ bytesOf 4 h.nextHide.toNat ++ bytesOf 1 h.held ++
    bytesOf 1 (h.recordsIn true) ++ bytesOf 1 (h.recordsIn false) ++ bytesOf 2 h.scraps ++ bytesOf 2 h.discarded

/-- One head of the STH group, 13 bytes (R139). -/
def Device.headGroup (d : Device) (n : Fin 4) : List Byte :=
  let h := d.head n
  [h.state.code] ++
    bytesOf 1 (bitsOf [h.disablePending, h.retryUsed, h.strikeHigh, !h.queue.isEmpty]) ++ bytesOf 1 h.queue.length ++
    (match h.queue with
      | e :: _ => bytesOf 4 e.hide.toNat ++ bytesOf 6 e.fire.toNat
      | [] => absentBytes 4 (.frontHide n.val) ++ bytesOf 6 0)

/-- STH group, 53 bytes (R139). -/
def Device.sthGroup (d : Device) : List Byte := [indication d.sth.table.isSome] ++ headNumbers.flatMap d.headGroup

/-- The bytes of a pack slot's accumulator (R152). -/
def openPackBytes (n : Fin 4) : Option Pack → List Byte
  | some p => [1] ++ bytesOf 4 p.number.toNat ++ bytesOf 2 p.hides ++ bytesOf 1 p.target
  | none =>
    [0] ++ absentBytes 4 (.openNumber n.val) ++ absentBytes 2 (.openCount n.val) ++ absentBytes 1 (.openTarget n.val)

/-- The bytes of a pack slot's close buffer (R152). -/
def heldPackBytes (n : Fin 4) : Option ClosedPack → List Byte
  | some c => [1] ++ bytesOf 4 c.pack.number.toNat ++ bytesOf 2 c.pack.hides ++ [c.flagByte]
  | none =>
    [0] ++ absentBytes 4 (.heldNumber n.val) ++ absentBytes 2 (.heldCount n.val) ++ absentBytes 1 (.heldFlags n.val)

/-- PKU group, 68 bytes (R152). -/
def Device.pkuGroup (d : Device) : List Byte :=
  bytesOf 4 d.pku.nextPack.toNat ++
    headNumbers.flatMap fun n => openPackBytes n (d.slot n).acc ++ heldPackBytes n (d.slot n).buf

/-- One input of the LCT group, 2 bytes (R175); a debounce timer of 255 ms is shown as 255 at most, what its byte can hold (log 8). -/
def Device.inputGroup (d : Device) (n : Fin 8) : List Byte :=
  let i := d.lct.input n
  bytesOf 1 (bitsOf [i.raw, i.debounced, d.lct.inputActive n, i.timer.isSome]) ++
    (match i.timer with
      | some t => bytesOf 1 (min (Timer.msLeft (some t)) 255)
      | none => absentBytes 1 (.debounceMs n.val))

/-- The set of latches in a state, as 32 bits (R206). -/
def Lct.latchSet (l : Lct) (s : LatchState) : Nat := bitsOf (l.latches.map (· == s))

/-- LCT group, 36 bytes (R175). -/
def Device.lctGroup (d : Device) : List Byte :=
  let l := d.lct
  [l.lineState.code, l.haltCause.code] ++ bytesOf 4 l.control.word ++ bytesOf 1 (bitsOf [l.beltRun, l.estop]) ++
    inputNumbers.flatMap d.inputGroup ++ bytesOf 4 (l.latchSet .pending) ++ bytesOf 4 (l.latchSet .held) ++
    bytesOf 4 l.maskWord ++ [indication l.wants]

def SegState.code : SegState → Byte
  | .same => 0
  | .loaded => 1
  | .unset => 2

def CommitResult.code : CommitResult → Byte
  | .none => 0
  | .done => 1
  | .failed => 2

/-- CCU group, 26 bytes (R190). -/
def Device.ccuGroup (d : Device) : List Byte :=
  let c := d.ccu
  [indication c.valid] ++ bytesOf 4 c.audit ++ [indication c.committing] ++
    (match c.commitTimer with | some t => bytesOf 2 (Timer.msLeft (some t)) | none => absentBytes 2 .commitMs) ++
    [c.lastResult.code] ++ c.segments.map SegState.code ++
    bytesOf 1 (bitsOf [c.lock.lockNext, c.lock.locked, c.promotionPending, c.strapFitted])

/-- LNK group, 14 bytes (R204). The reply FIFO's depth counts placed replies and reservations (R212). -/
def Device.lnkGroup (d : Device) : List Byte :=
  let l := d.lnk
  bytesOf 2 l.badFrames ++ bytesOf 2 l.forwardDrops ++ bytesOf 2 l.upstreamDrops ++ bytesOf 2 l.incompleteLoads ++
    bytesOf 1 l.upFifo.length ++ bytesOf 1 (l.replyFifo.length + d.dec.reservations) ++
    bytesOf 1 l.reportFifo.length ++ bytesOf 1 l.forwardFifo.length ++
    bytesOf 1 (match l.assembly with | some a => a.next + 1 | none => 0) ++ [indication l.downTx.isSome]

/-- The QUERY status block (R210, R224). -/
def Device.statusBlock (d : Device) : List Byte :=
  d.bpuGroup ++ d.lcnGroup ++ d.rtkGroup ++ d.hevGroup ++ d.sthGroup ++ d.pkuGroup ++ d.lctGroup ++ d.ccuGroup ++
    d.lnkGroup

/-- QUERY changes no state (R224). -/
def Device.requestQuery (d : Device) : Reply × Device := (.ok d.statusBlock, d)

/-! ### READ (R191, R210, R219) -/

/-- An OK reply to a READ: area, segment, content. -/
def readReply (area segment : Byte) (content : List Byte) : Reply := .ok ([area, segment] ++ content)

/-- A segment out of range (R219). -/
def badSegment : Reply := .refuse .badSegment 0

/-- The blank map of CONDITIONING: bit n is set when the word of position 3,201 + n is blank (R210). -/
def blankMap (words : List (Option Nat)) : List Byte := bytesOf 1 (bitsOf (words.map Option.isNone))

/-- READ of WIDTHS, MASK or CONDITIONING (R191). -/
def Device.readCal (t : CalTable) (segment : Byte) (d : Device) : Reply :=
  if t.segments ≤ segment.toNat then badSegment
  else
    let words := segmentWords t segment.toNat d.ccu.active
    readReply t.code segment
      ([indication d.ccu.valid] ++ bytesOf 4 d.ccu.audit ++
        [(d.ccu.segments.getD (t.segmentIndex segment.toNat) .unset).code] ++
        (if t = .conditioning then blankMap words else []) ++ words.flatMap wordBytes)

/-- READ of TERMS (R110): when they are absent, generation 0 and no table. -/
def Device.readTerms (segment : Byte) (d : Device) : Reply :=
  if segment ≠ 0 then badSegment
  else
    match d.hev.terms with
    | some t => readReply tableTerms segment ([1] ++ bytesOf 4 d.hev.generation.toNat ++ t.bytes)
    | none => readReply tableTerms segment ([0] ++ bytesOf 4 0)

/-- READ of HEADS (R114). -/
def Device.readHeads (segment : Byte) (d : Device) : Reply :=
  if segment ≠ 0 then badSegment
  else
    match d.sth.table with
    | some t => readReply tableHeads segment ([1] ++ t.flatMap HeadEntry.bytes)
    | none => readReply tableHeads segment [0]

/-- READ of INPUTS (R168). -/
def Device.readInputs (segment : Byte) (d : Device) : Reply :=
  if segment ≠ 0 then badSegment else readReply tableInputs segment (d.lct.table.flatMap InputEntry.bytes)

/-- A record slot as READ of RECORDS shows it, 105 bytes (R94, R210). -/
def recordSlotBytes (slot : Nat) : Option HideRecord → List Byte
  | none => bytesOf 105 0
  | some r => (if r.isPending then 1 else 2) :: r.bytes slot

/-- READ of RECORDS (R94). -/
def Device.readRecords (segment : Byte) (d : Device) : Reply :=
  if 6 ≤ segment.toNat then badSegment
  else
    readReply areaRecords segment
      ((List.range 4).flatMap fun i => recordSlotBytes (4 * segment.toNat + i) (d.record (4 * segment.toNat + i)))

/-- A queue entry as READ of QUEUES shows it, 15 bytes (R210). -/
def StampEntry.bytes (e : StampEntry) : List Byte :=
  bytesOf 4 e.hide.toNat ++ bytesOf 1 e.slot ++ bytesOf 6 e.fire.toNat ++ bytesOf 3 e.wheels.word.toNat ++ bytesOf 1 e.force

/-- A word of a head that may be absent (R140, R210). -/
def headWordBytes (absent : AbsentField) : Option Word32 → List Byte
  | some w => bytesOf 4 w.toNat
  | none => absentBytes 4 absent

/-- READ of QUEUES (R140). -/
def Device.readQueues (segment : Byte) (d : Device) : Reply :=
  match numberOf segment with
  | none => badSegment
  | some n =>
    let h := d.head n
    readReply areaQueues segment
      ([h.state.code] ++
        bytesOf 1 (bitsOf [h.disablePending, h.retryUsed, h.lastShift.isSome, h.lastReadback.isSome]) ++
        headWordBytes .lastShift h.lastShift ++ headWordBytes .lastReadback h.lastReadback ++
        bytesOf 1 h.queue.length ++ h.queue.flatMap StampEntry.bytes)

/-- A READ that is performed on arrival changes no state (R219). -/
def Device.requestRead (read : Device → Reply) (d : Device) : Reply × Device := (read d, d)

end Sys2Proof.Machine
end

