-- ==== Sys2Proof/Machine/Power.lean ====
section
/-!
DEFINITION. Power, reset, the end of INIT and the millisecond tick (R15, R16, R18, R156, R185, R186, R192, R205).
-/

namespace Sys2Proof.Machine

/-- Every block at its power-on values over the store that the cut leaves (R18, R39, R70, R95, R141, R153, R176, R192,
R205, R226). The MODEL'S draw counter goes on. -/
def Device.restart (d : Device) : Device := Device.reset d.storeAfterCut (d.draws + 1)

/-- Power is applied (R18). -/
def Device.powerOn (d : Device) : Device := d.restart

/-- The reset pin is taken low and released (R18, R192); without a supply it does nothing. -/
def Device.resetPin (d : Device) : Device := if d.powered then d.restart else d

/-- Power is lost: the store stops where it stands, and volatile state is lost (R185). -/
def Device.powerLoss (d : Device) : Device := if d.powered then { d.restart with powered := false } else d

/-- The eight inputs at the end of INIT: the sampled levels, with no edge (R176). -/
def initialInputs (levels : BitVec 8) : List InputLine :=
  inputNumbers.map fun n => ⟨levels.getLsbD n.val, levels.getLsbD n.val, none⟩

/-- INIT ends (R186, R156, R18, R176). -/
def Device.endOfInit (a b strapFitted : Bool) (inputs : BitVec 8) (d : Device) : Device :=
  if d.powered && d.lct.lineState == .init then
    let d := { d with
      ccu := d.ccu.load strapFitted
      bpu := { d.bpu with encA := a, encB := b }
      lct := { d.lct with lineState := .idle, inputs := initialInputs inputs } }.loadDivider
    (if d.ccu.valid then d else d.raise .calInvalid).askEventPlace
  else d

def Head.tick (h : Head) : Head := { h with timer := Timer.tick h.timer }

def InputLine.tick (i : InputLine) : InputLine := { i with timer := Timer.tick i.timer }

def Receiver.tick : Receiver → Receiver
  | .hunting => .hunting
  | .receiving gathered timeout => .receiving gathered (Timer.tick timeout)

def Assembly.tick (a : Assembly) : Assembly := { a with timeout := Timer.tick a.timeout }

/-- The pulses that the free-run source gives in the millisecond that a tick opens (R2). -/
def Device.freeRunPulses (d : Device) : Nat :=
  if d.lct.lineState == .running && d.lct.control.freeRun then d.lct.control.rate else 0

/-- The millisecond tick (R15, R16): the uptime rises, every time-out runs on, and a store at work on a commit works on (R182). -/
def Device.tick (d : Device) : Device :=
  if d.powered then
    { d with
      bpu := { d.bpu with
        uptime := d.bpu.uptime + 1
        pauseTimer := Timer.tick d.bpu.pauseTimer
        freeRunLeft := d.freeRunPulses }
      sth := { d.sth with heads := d.sth.heads.map Head.tick }
      lct := { d.lct with inputs := d.lct.inputs.map InputLine.tick }
      ccu := { d.ccu.storeWorks d.draws with commitTimer := Timer.tick d.ccu.commitTimer }
      lnk := { d.lnk with
        upReceiver := d.lnk.upReceiver.tick
        downReceiver := d.lnk.downReceiver.tick
        assembly := d.lnk.assembly.map Assembly.tick }
      draws := d.draws + 1 }
  else d

end Sys2Proof.Machine
end

