-- ==== Sys2Proof/Machine/EventCommands.lean ====
section
/-!
DEFINITION. The meanings of the events: power, the belt, the tick and time-outs, frames of both ports, the transmitters, the
tracker's own steps, the heads, the line inputs and the calibration store.
-/

namespace Sys2Proof.Machine

/-- A good frame on a port ends its receiver's frame: the receiver hunts again (R195). -/
def Device.received (port : Port) (f : Device → Device) (d : Device) : Device := f (d.setReceiver port .hunting)

/-! ### Power (R18, R185, R186) -/

/-- POWER_ON (R18). -/
def execPowerOn (s : State) : Host.Outcome State Fault Refusal := .next (s.onDevice Device.powerOn)

/-- RESET_PIN (R18, R192). -/
def execResetPin (s : State) : Host.Outcome State Fault Refusal := .next (s.onDevice Device.resetPin)

/-- POWER_LOSS (R185). -/
def execPowerLoss (s : State) : Host.Outcome State Fault Refusal := .next (s.onDevice Device.powerLoss)

/-- END_OF_INIT (R186). -/
def execEndOfInit (a b strapFitted : Bool) (inputs : BitVec 8) (s : State) : Host.Outcome State Fault Refusal :=
  .next (s.onDevice (Device.endOfInit a b strapFitted inputs))

/-! ### Belt and time (R1 to R16) -/

/-- ENCODER_EDGE (R1). -/
def execEncoderEdge (a b : Bool) (s : State) : Host.Outcome State Fault Refusal := s.event (Device.encoderSample a b)

/-- FREE_RUN_PULSE (R2). -/
def execFreeRunPulse (s : State) : Host.Outcome State Fault Refusal := s.event Device.freeRunPulse

/-- TICK (R15). -/
def execTick (s : State) : Host.Outcome State Fault Refusal := .next (s.onDevice Device.tick)

/-- PAUSE_RETIREMENT_EXPIRY (R14). -/
def execPauseRetirementExpiry (s : State) : Host.Outcome State Fault Refusal := s.event Device.retireOutstanding

/-! ### Frames (R195 to R200) -/

/-- A LINE frame (R198): a copy goes downstream when FWD_LINES is set, and the frame to acceptance (R22). -/
def Device.lineFrame (source : Byte) (payload : List Byte) (d : Device) : Device :=
  (if d.lct.control.fwdLines then d.forwardDown ⟨kindLine, source, payload⟩ else d).acceptLine payload

/-- LINE_FRAME (R22). -/
def execLineFrame (source : Byte) (payload : List Byte) (s : State) : Host.Outcome State Fault Refusal :=
  s.event (Device.received .upstream (Device.lineFrame source payload))

/-- BAR_REPLY_FRAME (R198). -/
def execBarReplyFrame (kind source : Byte) (payload : List Byte) (s : State) : Host.Outcome State Fault Refusal :=
  s.event (Device.received .upstream (Device.forwardDown ⟨kind, source, payload⟩))

/-- BAR_FORWARD_FRAME (R197). -/
def execBarForwardFrame (kind : Byte) (payload : List Byte) (s : State) : Host.Outcome State Fault Refusal :=
  s.event (Device.received .downstream (Device.forwardUp ⟨kind, targetBar, payload⟩))

/-- BAD_TARGET_FRAME (R196): whatever its bytes, the frame is discarded. -/
def execBadTargetFrame (_target _kind : Byte) (_payload : List Byte) (s : State) : Host.Outcome State Fault Refusal :=
  s.event (Device.received .downstream Device.discardFrame)

/-- What the request decoder does with a request message that is not a LOAD's, by the command that the message is (R196, R212). -/
def Device.takeRequest (c : Instr) (d : Device) : Device :=
  match c with
  | .query => d.answer kindQuery Device.requestQuery
  | .start => d.answer kindStart Device.requestStart
  | .stop => d.answer kindStop Device.requestStop
  | .ackFault => d.answer kindAckFault Device.requestAckFault
  | .flush => d.wait .flush
  | .lineReset => d.wait .lineReset
  | .readRegions segment => d.wait (.readRegions segment)
  | .commitCal sum => d.answer kindCommitCal (Device.commitCal sum)
  | .readWidths segment => d.answer kindRead (Device.requestRead (Device.readCal .widths segment))
  | .readMask segment => d.answer kindRead (Device.requestRead (Device.readCal .mask segment))
  | .readConditioning segment => d.answer kindRead (Device.requestRead (Device.readCal .conditioning segment))
  | .readTerms segment => d.answer kindRead (Device.requestRead (Device.readTerms segment))
  | .readHeads segment => d.answer kindRead (Device.requestRead (Device.readHeads segment))
  | .readInputs segment => d.answer kindRead (Device.requestRead (Device.readInputs segment))
  | .readRecords segment => d.answer kindRead (Device.requestRead (Device.readRecords segment))
  | .readQueues segment => d.answer kindRead (Device.requestRead (Device.readQueues segment))
  | .readBadArea _ _ => d.answer kindRead Device.badTable
  | .setFlagsControl selector mask => d.answer kindSetFlags (Device.changeFlags true selector mask)
  | .clearFlagsControl selector mask => d.answer kindClearFlags (Device.changeFlags false selector mask)
  | .setFlagsEventMask mask => d.answer kindSetFlags (Device.changeFlags true 1 mask)
  | .clearFlagsEventMask mask => d.answer kindClearFlags (Device.changeFlags false 1 mask)
  | .headEnableOff head => d.answer kindHeadEnable (Device.requestHeadOff head)
  | .headEnableOn head on => d.answer kindHeadEnable (Device.requestHeadOn head on)
  | .clearStall head => d.answer kindClearStall (Device.requestClearStall head)
  | .closePack slot => d.answer kindClosePack (Device.requestClosePack slot)
  | .lockNext => d.answer kindLockNext Device.requestLockNext
  | .clearCounters => d.answer kindClearCounters Device.requestClearCounters
  | .unknownRequest kind _ => d.answer kind Device.badMessage
  | _ => d

/-- A good frame on the upstream port is routed (R198). -/
def Device.routeUpstream (f : Frame) (d : Device) : Device :=
  if f.kind = kindLine then d.lineFrame f.addr f.payload else d.forwardDown f

/-- A good frame on the downstream port is routed by its target (R196). -/
def Device.routeDownstream (f : Frame) (d : Device) : Device :=
  if f.addr = targetPart then
    (if f.kind = kindLoad then d.takePart f.payload else d.takeRequest (requestCommand f.kind f.payload))
  else if f.addr = targetBar then d.forwardUp f
  else d.discardFrame

/-- A good frame that its last bytes have made whole is routed (R195, R196, R198). -/
def Device.route (port : Port) (f : Frame) (d : Device) : Device :=
  match port with
  | .upstream => d.routeUpstream f
  | .downstream => d.routeDownstream f

/-- A byte that the receiver of a port takes (R195). In HUNTING a byte is discarded, unless it is a start delimiter, with which the
frame time-out starts. In RECEIVING it joins the bytes gathered: a frame not yet whole goes on, and one that is judged is discarded
or routed, its receiver hunting again. -/
def Device.takeByte (port : Port) (b : Byte) (d : Device) : Device :=
  match d.lnk.receiver port with
  | .hunting => if b = startDelimiter then d.setReceiver port (.receiving [] (Timer.start 1 false)) else d
  | .receiving gathered timeout =>
    match judge (gathered ++ [b]) with
    | .incomplete => d.setReceiver port (.receiving (gathered ++ [b]) timeout)
    | .discard => d.received port Device.discardFrame
    | .good f => d.received port (Device.route port f)

/-- Bytes that arrive on a port one after another, each an event of its own (R195, R173). -/
def Device.takeBytes (port : Port) (bytes : List Byte) (d : Device) : Device :=
  bytes.foldl (fun d b => d.event (Device.takeByte port b)) d

/-- DISCARDED_FRAME (R195): bytes as they come on the wire, taken one by one (log 18). -/
def execDiscardedFrame (port : Port) (bytes : List Byte) (s : State) : Host.Outcome State Fault Refusal :=
  .next (s.onDevice (Device.takeBytes port bytes))

/-- The frame time-out of a receiver expires (R195). -/
def Device.frameTimeout (port : Port) (d : Device) : Device :=
  match d.lnk.receiver port with
  | .hunting => d
  | .receiving _ timeout => if timeout.due then (d.setReceiver port .hunting).discardFrame else d

/-- FRAME_TIMEOUT_EXPIRY (R195). -/
def execFrameTimeoutExpiry (port : Port) (s : State) : Host.Outcome State Fault Refusal :=
  s.event (Device.frameTimeout port)

/-- LOAD_PART (R200). -/
def execLoadPart (payload : List Byte) (s : State) : Host.Outcome State Fault Refusal :=
  s.event (Device.received .downstream (Device.takePart payload))

/-- LOAD_PART_TIMEOUT (R200). -/
def execLoadPartTimeout (s : State) : Host.Outcome State Fault Refusal := s.event Device.partTimeout

/-- DOWNSTREAM_FRAME_END (R203). -/
def execDownstreamFrameEnd (s : State) : Host.Outcome State Fault Refusal := s.event Device.endDownFrame

/-- UPSTREAM_FRAME_END (R197). -/
def execUpstreamFrameEnd (s : State) : Host.Outcome State Fault Refusal := s.event Device.endUpFrame

/-! ### The tracker (R47, R48, R65) -/

/-- The tracker between lines serves what waits and takes the oldest queue entry, when that is one it is wanted for (R47).
With no such entry nothing happens. -/
def Device.takeNext (wanted : QueueEntry → Bool) (d : Device) : Device :=
  if d.betweenLines then
    match d.settle.lcn.queue with
    | e :: _ => if wanted e then d.settle.takeEntry else d
    | [] => d
  else d

/-- The entry under way performed to its end: the fills it has left, then its line (R47, R48). -/
def Device.performEntry (t : Terms) (d : Device) : Device :=
  match d.rtk.work with
  | some w => (d.replayAll t w.left).performLine t
  | none => d

/-- The tracker takes the oldest queue entry, if it is between lines, and performs it to its end; with no terms it performs
no line (R47, R108). -/
def Device.trackLine (d : Device) : Device :=
  match d.hev.terms with
  | some t => (d.takeNext fun _ => true).performEntry t
  | none => d

/-- LINE_OPERATION (R47). -/
def execLineOperation (s : State) : Host.Outcome State Fault Refusal := s.event Device.trackLine

/-- The next fill of the entry under way (R48). -/
def Device.nextFill (t : Terms) (d : Device) : Device :=
  match d.rtk.work with
  | some w => if w.left = 0 then d else d.replayOne t w
  | none => d

/-- One fill: of the entry under way, or of the oldest queue entry that the tracker takes for its fills (R47, R48). -/
def Device.trackFill (d : Device) : Device :=
  match d.hev.terms with
  | some t => (d.takeNext fun e => 0 < e.replays).nextFill t
  | none => d

/-- FILL (R48). -/
def execFill (s : State) : Host.Outcome State Fault Refusal := s.event Device.trackFill

/-- A walk between lines with retry pending set (R65). -/
def Device.walkBetweenLines (d : Device) : Device :=
  if d.betweenLines && d.rtk.retryPending then d.offerWalk else d

/-- OFFER_WALK (R65). -/
def execOfferWalk (s : State) : Host.Outcome State Fault Refusal := s.event Device.walkBetweenLines

/-! ### Heads (R123, R129, R130) -/

/-- SET_TIME_EXPIRY (R123). -/
def execSetTimeExpiry (head : Fin 4) (readback : Word32) (s : State) : Host.Outcome State Fault Refusal :=
  s.event (Device.setTimeExpiry head readback)

/-- STRIKE_TIME_EXPIRY (R129). -/
def execStrikeTimeExpiry (head : Fin 4) (s : State) : Host.Outcome State Fault Refusal :=
  s.event (Device.strikeTimeExpiry head)

/-- RECOVER_TIME_EXPIRY (R130). -/
def execRecoverTimeExpiry (head : Fin 4) (s : State) : Host.Outcome State Fault Refusal :=
  s.event (Device.recoverTimeExpiry head)

/-! ### Line inputs (R169) -/

/-- INPUT_SAMPLE (R169). -/
def execInputSample (input : Fin 8) (level : Bool) (s : State) : Host.Outcome State Fault Refusal :=
  s.event (Device.sampleInput input level)

/-- DEBOUNCE_EXPIRY (R169). -/
def execDebounceExpiry (input : Fin 8) (s : State) : Host.Outcome State Fault Refusal :=
  s.event (Device.debounceExpiry input)

/-! ### The calibration store (R183, R184) -/

/-- SEAL_WRITE_COMPLETE (R183). -/
def execSealWriteComplete (s : State) : Host.Outcome State Fault Refusal := s.event Device.sealWriteComplete

/-- COMMIT_TIMER_EXPIRY (R184). -/
def execCommitTimerExpiry (s : State) : Host.Outcome State Fault Refusal := s.event Device.commitTimerExpiry

end Sys2Proof.Machine
end

