-- ==== Sys2Proof/Machine/RequestCommands.lean ====
section
/-!
DEFINITION. The meanings of the requests of the tally station and of the tracker's service of those that wait.
-/

namespace Sys2Proof.Machine

/-- A request message that does not wait reaches the decoder in its frame (R196, R212). -/
def State.request (kind : Byte) (perform : Device → Reply × Device) (s : State) : Host.Outcome State Fault Refusal :=
  s.event (Device.received .downstream (Device.answer kind perform))

/-- A request that waits for the tracker reaches the decoder in its frame (R196, R214). -/
def State.waitingRequest (w : Waiting) (s : State) : Host.Outcome State Fault Refusal :=
  s.event (Device.received .downstream (Device.wait w))

/-! ### QUERY and the line state -/

/-- QUERY (R224). -/
def execQuery (s : State) : Host.Outcome State Fault Refusal := s.request kindQuery Device.requestQuery

/-- START (R159). -/
def execStart (s : State) : Host.Outcome State Fault Refusal := s.request kindStart Device.requestStart

/-- STOP (R160). -/
def execStop (s : State) : Host.Outcome State Fault Refusal := s.request kindStop Device.requestStop

/-- ACK_FAULT (R164). -/
def execAckFault (s : State) : Host.Outcome State Fault Refusal := s.request kindAckFault Device.requestAckFault

/-! ### Requests that wait -/

/-- FLUSH (R214). -/
def execFlush (s : State) : Host.Outcome State Fault Refusal := s.waitingRequest .flush

/-- FLUSH_SERVICE (R216). -/
def execFlushService (s : State) : Host.Outcome State Fault Refusal := s.event (Device.serveKind Waiting.isFlush)

/-- LINE_RESET (R214). -/
def execLineReset (s : State) : Host.Outcome State Fault Refusal := s.waitingRequest .lineReset

/-- LINE_RESET_SERVICE (R166). -/
def execLineResetService (s : State) : Host.Outcome State Fault Refusal := s.event (Device.serveKind Waiting.isLineReset)

/-- READ of REGIONS (R214). -/
def execReadRegions (segment : Byte) (s : State) : Host.Outcome State Fault Refusal :=
  s.waitingRequest (.readRegions segment)

/-- READ_REGIONS_SERVICE (R69). -/
def execReadRegionsService (s : State) : Host.Outcome State Fault Refusal :=
  s.event (Device.serveKind Waiting.isReadRegions)

/-! ### LOAD -/

/-- LOAD_WIDTHS (R180). -/
def execLoadWidths (segment : Byte) (data : List Byte) (s : State) : Host.Outcome State Fault Refusal :=
  s.request kindLoad (Device.loadCal .widths segment data)

/-- LOAD_MASK (R180). -/
def execLoadMask (segment : Byte) (data : List Byte) (s : State) : Host.Outcome State Fault Refusal :=
  s.request kindLoad (Device.loadCal .mask segment data)

/-- LOAD_CONDITIONING (R180). -/
def execLoadConditioning (segment : Byte) (data : List Byte) (s : State) : Host.Outcome State Fault Refusal :=
  s.request kindLoad (Device.loadCal .conditioning segment data)

/-- LOAD_TERMS (R106). -/
def execLoadTerms (segment : Byte) (data : List Byte) (s : State) : Host.Outcome State Fault Refusal :=
  s.request kindLoad (Device.loadTerms segment data)

/-- LOAD_HEADS (R113). -/
def execLoadHeads (segment : Byte) (data : List Byte) (s : State) : Host.Outcome State Fault Refusal :=
  s.request kindLoad (Device.loadHeads segment data)

/-- LOAD_INPUTS (R168). -/
def execLoadInputs (segment : Byte) (data : List Byte) (s : State) : Host.Outcome State Fault Refusal :=
  s.request kindLoad (Device.loadInputs segment data)

/-- LOAD_BAD_TABLE (R218): whatever table is named, the answer is BAD_TABLE. -/
def execLoadBadTable (_table _segment : Byte) (_data : List Byte) (s : State) : Host.Outcome State Fault Refusal :=
  s.request kindLoad Device.badTable

/-- COMMIT_CAL (R181, R182). -/
def execCommitCal (sum : Word32) (s : State) : Host.Outcome State Fault Refusal :=
  s.request kindCommitCal (Device.commitCal sum)

/-! ### READ -/

/-- READ_WIDTHS (R191). -/
def execReadWidths (segment : Byte) (s : State) : Host.Outcome State Fault Refusal :=
  s.request kindRead (Device.requestRead (Device.readCal .widths segment))

/-- READ_MASK (R191). -/
def execReadMask (segment : Byte) (s : State) : Host.Outcome State Fault Refusal :=
  s.request kindRead (Device.requestRead (Device.readCal .mask segment))

/-- READ_CONDITIONING (R191). -/
def execReadConditioning (segment : Byte) (s : State) : Host.Outcome State Fault Refusal :=
  s.request kindRead (Device.requestRead (Device.readCal .conditioning segment))

/-- READ_TERMS (R110). -/
def execReadTerms (segment : Byte) (s : State) : Host.Outcome State Fault Refusal :=
  s.request kindRead (Device.requestRead (Device.readTerms segment))

/-- READ_HEADS (R114). -/
def execReadHeads (segment : Byte) (s : State) : Host.Outcome State Fault Refusal :=
  s.request kindRead (Device.requestRead (Device.readHeads segment))

/-- READ_INPUTS (R168). -/
def execReadInputs (segment : Byte) (s : State) : Host.Outcome State Fault Refusal :=
  s.request kindRead (Device.requestRead (Device.readInputs segment))

/-- READ_RECORDS (R94). -/
def execReadRecords (segment : Byte) (s : State) : Host.Outcome State Fault Refusal :=
  s.request kindRead (Device.requestRead (Device.readRecords segment))

/-- READ_QUEUES (R140). -/
def execReadQueues (segment : Byte) (s : State) : Host.Outcome State Fault Refusal :=
  s.request kindRead (Device.requestRead (Device.readQueues segment))

/-- READ_BAD_AREA (R219): whatever area is named, the answer is BAD_TABLE. -/
def execReadBadArea (_area _segment : Byte) (s : State) : Host.Outcome State Fault Refusal :=
  s.request kindRead Device.badTable

/-! ### Flag words -/

/-- SET_FLAGS_CONTROL (R222). -/
def execSetFlagsControl (selector : Byte) (mask : Word32) (s : State) : Host.Outcome State Fault Refusal :=
  s.request kindSetFlags (Device.changeFlags true selector mask)

/-- CLEAR_FLAGS_CONTROL (R222). -/
def execClearFlagsControl (selector : Byte) (mask : Word32) (s : State) : Host.Outcome State Fault Refusal :=
  s.request kindClearFlags (Device.changeFlags false selector mask)

/-- SET_FLAGS_EVENT_MASK (R223). -/
def execSetFlagsEventMask (mask : Word32) (s : State) : Host.Outcome State Fault Refusal :=
  s.request kindSetFlags (Device.changeFlags true 1 mask)

/-- CLEAR_FLAGS_EVENT_MASK (R223). -/
def execClearFlagsEventMask (mask : Word32) (s : State) : Host.Outcome State Fault Refusal :=
  s.request kindClearFlags (Device.changeFlags false 1 mask)

/-! ### Heads, packs, lock and counters -/

/-- HEAD_ENABLE_OFF (R134). -/
def execHeadEnableOff (head : Byte) (s : State) : Host.Outcome State Fault Refusal :=
  s.request kindHeadEnable (Device.requestHeadOff head)

/-- HEAD_ENABLE_ON (R135). -/
def execHeadEnableOn (head on : Byte) (s : State) : Host.Outcome State Fault Refusal :=
  s.request kindHeadEnable (Device.requestHeadOn head on)

/-- CLEAR_STALL (R126). -/
def execClearStall (head : Byte) (s : State) : Host.Outcome State Fault Refusal :=
  s.request kindClearStall (Device.requestClearStall head)

/-- CLOSE_PACK (R149). -/
def execClosePack (slot : Byte) (s : State) : Host.Outcome State Fault Refusal :=
  s.request kindClosePack (Device.requestClosePack slot)

/-- LOCK_NEXT (R188). -/
def execLockNext (s : State) : Host.Outcome State Fault Refusal := s.request kindLockNext Device.requestLockNext

/-- CLEAR_COUNTERS (R225). -/
def execClearCounters (s : State) : Host.Outcome State Fault Refusal :=
  s.request kindClearCounters Device.requestClearCounters

/-- UNKNOWN_REQUEST (R212): the answer is BAD_FRAME with the kind byte received. -/
def execUnknownRequest (kind : Byte) (_message : List Byte) (s : State) : Host.Outcome State Fault Refusal :=
  s.request kind Device.badMessage

end Sys2Proof.Machine
end

