-- ==== Sys2Proof/Machine/Dispatch.lean ====
section
/-!
DEFINITION. The dispatch: one arm per row of spec/opcode_table.json, in the table's order.
-/

namespace Sys2Proof.Machine

def exec (i : Instr) (s : State) : Host.Outcome State Fault Refusal :=
  match i with
  | .powerOn => Sys2Proof.Machine.execPowerOn s
  | .resetPin => Sys2Proof.Machine.execResetPin s
  | .powerLoss => Sys2Proof.Machine.execPowerLoss s
  | .endOfInit a b strapFitted inputs => Sys2Proof.Machine.execEndOfInit a b strapFitted inputs s
  | .encoderEdge a b => Sys2Proof.Machine.execEncoderEdge a b s
  | .freeRunPulse => Sys2Proof.Machine.execFreeRunPulse s
  | .tick => Sys2Proof.Machine.execTick s
  | .pauseRetirementExpiry => Sys2Proof.Machine.execPauseRetirementExpiry s
  | .lineFrame source payload => Sys2Proof.Machine.execLineFrame source payload s
  | .barReplyFrame kind source payload => Sys2Proof.Machine.execBarReplyFrame kind source payload s
  | .barForwardFrame kind payload => Sys2Proof.Machine.execBarForwardFrame kind payload s
  | .badTargetFrame target kind payload => Sys2Proof.Machine.execBadTargetFrame target kind payload s
  | .discardedFrame port bytes => Sys2Proof.Machine.execDiscardedFrame port bytes s
  | .frameTimeoutExpiry port => Sys2Proof.Machine.execFrameTimeoutExpiry port s
  | .loadPart payload => Sys2Proof.Machine.execLoadPart payload s
  | .loadPartTimeout => Sys2Proof.Machine.execLoadPartTimeout s
  | .downstreamFrameEnd => Sys2Proof.Machine.execDownstreamFrameEnd s
  | .upstreamFrameEnd => Sys2Proof.Machine.execUpstreamFrameEnd s
  | .lineOperation => Sys2Proof.Machine.execLineOperation s
  | .fill => Sys2Proof.Machine.execFill s
  | .offerWalk => Sys2Proof.Machine.execOfferWalk s
  | .setTimeExpiry head readback => Sys2Proof.Machine.execSetTimeExpiry head readback s
  | .strikeTimeExpiry head => Sys2Proof.Machine.execStrikeTimeExpiry head s
  | .recoverTimeExpiry head => Sys2Proof.Machine.execRecoverTimeExpiry head s
  | .inputSample input level => Sys2Proof.Machine.execInputSample input level s
  | .debounceExpiry input => Sys2Proof.Machine.execDebounceExpiry input s
  | .sealWriteComplete => Sys2Proof.Machine.execSealWriteComplete s
  | .commitTimerExpiry => Sys2Proof.Machine.execCommitTimerExpiry s
  | .query => Sys2Proof.Machine.execQuery s
  | .start => Sys2Proof.Machine.execStart s
  | .stop => Sys2Proof.Machine.execStop s
  | .ackFault => Sys2Proof.Machine.execAckFault s
  | .flush => Sys2Proof.Machine.execFlush s
  | .flushService => Sys2Proof.Machine.execFlushService s
  | .lineReset => Sys2Proof.Machine.execLineReset s
  | .lineResetService => Sys2Proof.Machine.execLineResetService s
  | .readRegions segment => Sys2Proof.Machine.execReadRegions segment s
  | .readRegionsService => Sys2Proof.Machine.execReadRegionsService s
  | .loadWidths segment data => Sys2Proof.Machine.execLoadWidths segment data s
  | .loadMask segment data => Sys2Proof.Machine.execLoadMask segment data s
  | .loadConditioning segment data => Sys2Proof.Machine.execLoadConditioning segment data s
  | .loadTerms segment data => Sys2Proof.Machine.execLoadTerms segment data s
  | .loadHeads segment data => Sys2Proof.Machine.execLoadHeads segment data s
  | .loadInputs segment data => Sys2Proof.Machine.execLoadInputs segment data s
  | .loadBadTable table segment data => Sys2Proof.Machine.execLoadBadTable table segment data s
  | .commitCal checkSum => Sys2Proof.Machine.execCommitCal checkSum s
  | .readWidths segment => Sys2Proof.Machine.execReadWidths segment s
  | .readMask segment => Sys2Proof.Machine.execReadMask segment s
  | .readConditioning segment => Sys2Proof.Machine.execReadConditioning segment s
  | .readTerms segment => Sys2Proof.Machine.execReadTerms segment s
  | .readHeads segment => Sys2Proof.Machine.execReadHeads segment s
  | .readInputs segment => Sys2Proof.Machine.execReadInputs segment s
  | .readRecords segment => Sys2Proof.Machine.execReadRecords segment s
  | .readQueues segment => Sys2Proof.Machine.execReadQueues segment s
  | .readBadArea area segment => Sys2Proof.Machine.execReadBadArea area segment s
  | .setFlagsControl selector mask => Sys2Proof.Machine.execSetFlagsControl selector mask s
  | .clearFlagsControl selector mask => Sys2Proof.Machine.execClearFlagsControl selector mask s
  | .setFlagsEventMask mask => Sys2Proof.Machine.execSetFlagsEventMask mask s
  | .clearFlagsEventMask mask => Sys2Proof.Machine.execClearFlagsEventMask mask s
  | .headEnableOff head => Sys2Proof.Machine.execHeadEnableOff head s
  | .headEnableOn head on => Sys2Proof.Machine.execHeadEnableOn head on s
  | .clearStall head => Sys2Proof.Machine.execClearStall head s
  | .closePack slot => Sys2Proof.Machine.execClosePack slot s
  | .lockNext => Sys2Proof.Machine.execLockNext s
  | .clearCounters => Sys2Proof.Machine.execClearCounters s
  | .unknownRequest kind message => Sys2Proof.Machine.execUnknownRequest kind message s

end Sys2Proof.Machine
end

