-- ==== Sys2Proof/WellFormed.lean ====
section
/-!
DEFINITION. Well-formed commands: the operands that the rules give a row can be those of that row (R193, R196, R198, R209, R212).
-/

namespace Sys2Proof

/-- A frame's payload is 0 to 256 bytes (R193). -/
def payloadFits (payload : List Byte) : Bool := payload.length ≤ 256

/-- The data of a LOAD message: at most 16 parts of 255 bytes, less the table and segment bytes (R199, R209). -/
def dataFits (data : List Byte) : Bool := data.length ≤ 4078

/-- The bytes of a frame that is not good, as they come on the wire: at most those of the longest frame, and none that make a good
frame from their first start delimiter on (R193, R195). -/
def bytesBad (bytes : List Byte) : Bool :=
  bytes.length ≤ 263 &&
    (match Machine.judge ((bytes.dropWhile (· != Machine.startDelimiter)).drop 1) with
      | .good _ => false
      | .incomplete | .discard => true)

/-- Whether the operands of a command are ones of its row. -/
def Instr.wf : Instr → Bool
  | .lineFrame _ payload => payloadFits payload
  | .barReplyFrame kind _ payload => kind != Machine.kindLine && payloadFits payload
  | .barForwardFrame _ payload => payloadFits payload
  | .badTargetFrame target _ payload =>
    target != Machine.targetPart && target != Machine.targetBar && payloadFits payload
  | .discardedFrame _ bytes => bytesBad bytes
  | .loadPart payload => payloadFits payload
  | .loadWidths _ data => dataFits data
  | .loadMask _ data => dataFits data
  | .loadConditioning _ data => dataFits data
  | .loadTerms _ data => dataFits data
  | .loadHeads _ data => dataFits data
  | .loadInputs _ data => dataFits data
  | .loadBadTable table _ data => !Machine.loadable table && dataFits data
  | .readBadArea area _ => !Machine.readable area
  | .setFlagsControl selector _ => selector != 1
  | .clearFlagsControl selector _ => selector != 1
  | .headEnableOn _ on => on != 0
  | .unknownRequest kind message => !Machine.messageLegal kind message.length && payloadFits message
  | .powerOn | .resetPin | .powerLoss | .endOfInit _ _ _ _ | .encoderEdge _ _ | .freeRunPulse | .tick
  | .pauseRetirementExpiry | .frameTimeoutExpiry _ | .loadPartTimeout | .downstreamFrameEnd | .upstreamFrameEnd
  | .lineOperation | .fill | .offerWalk | .setTimeExpiry _ _ | .strikeTimeExpiry _ | .recoverTimeExpiry _
  | .inputSample _ _ | .debounceExpiry _ | .sealWriteComplete | .commitTimerExpiry | .query | .start | .stop
  | .ackFault | .flush | .flushService | .lineReset | .lineResetService | .readRegions _ | .readRegionsService
  | .commitCal _ | .readWidths _ | .readMask _ | .readConditioning _ | .readTerms _ | .readHeads _ | .readInputs _
  | .readRecords _ | .readQueues _ | .setFlagsEventMask _ | .clearFlagsEventMask _ | .headEnableOff _ | .clearStall _
  | .closePack _ | .lockNext | .clearCounters => true

end Sys2Proof
end

