-- ==== Sys2Proof/Safety.lean ====
section
/-!
DEFINITION. What the statements speak of: the blocks of the device and which of them a step may change, a device that takes
a request, a reply placed, and the invariants of the machine (R7, R11, R26, R115, R128, R187, R188, R197, R198, R202, R203, R212
to R214).
-/

namespace Sys2Proof.Machine

/-- The parts of a device: the supply, the nine blocks, the request decoder and the model's draw counter. -/
inductive Block where
  | powered
  | bpu
  | lcn
  | rtk
  | hev
  | sth
  | pku
  | lct
  | ccu
  | lnk
  | dec
  | draws
  deriving DecidableEq, Repr

/-- A part is the same in two devices. -/
def Block.same (d t : Device) : Block → Prop
  | .powered => t.powered = d.powered
  | .bpu => t.bpu = d.bpu
  | .lcn => t.lcn = d.lcn
  | .rtk => t.rtk = d.rtk
  | .hev => t.hev = d.hev
  | .sth => t.sth = d.sth
  | .pku => t.pku = d.pku
  | .lct => t.lct = d.lct
  | .ccu => t.ccu = d.ccu
  | .lnk => t.lnk = d.lnk
  | .dec => t.dec = d.dec
  | .draws => t.draws = d.draws

/-- Nothing but the parts listed differs. -/
def Touches (parts : List Block) (d t : Device) : Prop := ∀ b, b ∉ parts → b.same d t

/-- A layout carries fields, each given by its offset, its length in bytes and the number it spells, most significant byte first
(R193). -/
def Shows (bytes : List Byte) (fields : List (Nat × Nat × Nat)) : Prop :=
  ∀ f ∈ fields, fieldAt f.1 f.2.1 bytes = f.2.2 % 256 ^ f.2.1

/-! ### Requests and replies -/

/-- The transmitter is SENDING, or no downstream FIFO holds anything: an IDLE transmitter has taken what there was (R203). -/
def Lnk.txSettled (l : Lnk) : Prop :=
  l.downTx = none → l.replyFifo = [] ∧ l.reportFifo = [] ∧ l.forwardFifo = []

/-- The device is supplied and INIT has ended: it takes commands (R18, R156). -/
structure Device.InService (d : Device) : Prop where
  powered : d.powered = true
  afterInit : d.lct.lineState ≠ .init

/-- A device whose decoder takes a request and performs it: in service, with a reply place free and no request owed (R212). -/
structure Device.ReadyFor (d : Device) : Prop extends Device.InService d where
  place : d.lnk.replyFifo.length + d.dec.reservations < 4
  notOwed : d.dec.owed = []

/-- A good frame on the downstream port has ended: its receiver hunts again (R195). -/
def Device.heard (d : Device) : Device := d.setReceiver .downstream .hunting

/-- A good frame on the upstream port has ended: its receiver hunts again (R195). -/
def Device.heardUp (d : Device) : Device := d.setReceiver .upstream .hunting

/-- A request ends: its reply is placed, and the event ends with the LCT's ask for a report place (R173, R212). -/
def Device.replied (kind : Byte) (r : Reply) (d : Device) : Device := (d.placeReply (r.message kind)).askEventPlace

/-- A REPLY message is placed as the newest reply; an IDLE transmitter takes its first part at once (R201, R203, R212). -/
def Answered (kind : Byte) (r : Reply) (d t : Device) : Prop :=
  match d.lnk.downTx with
  | some f => t.lnk.downTx = some f ∧ t.lnk.replyFifo = d.lnk.replyFifo ++ [⟨r.message kind, 0⟩]
  | none =>
    t.lnk.downTx = some (replyPart (r.message kind) 0) ∧
      t.lnk.replyFifo = if partCount (r.message kind) ≤ 1 then [] else [⟨r.message kind, 1⟩]

/-- The line control but for its event latches, which the EVENT frame at the end of an event may clear (R173). -/
def Lct.sameButLatches (l m : Lct) : Prop := m = { l with latches := m.latches }

/-- A time-out after a number of ticks. -/
def Timer.after : Nat → Timer → Timer
  | 0, t => t
  | k + 1, t => Timer.after k t.tick

/-- The request kind of a row that is a request of the station (R206, R209). -/
def requestKind : Instr → Option Byte
  | .query => some kindQuery
  | .start => some kindStart
  | .stop => some kindStop
  | .ackFault => some kindAckFault
  | .flush => some kindFlush
  | .lineReset => some kindLineReset
  | .readRegions _ | .readWidths _ | .readMask _ | .readConditioning _ | .readTerms _ | .readHeads _ | .readInputs _
  | .readRecords _ | .readQueues _ | .readBadArea _ _ => some kindRead
  | .loadWidths _ _ | .loadMask _ _ | .loadConditioning _ _ | .loadTerms _ _ | .loadHeads _ _ | .loadInputs _ _
  | .loadBadTable _ _ _ => some kindLoad
  | .commitCal _ => some kindCommitCal
  | .setFlagsControl _ _ | .setFlagsEventMask _ => some kindSetFlags
  | .clearFlagsControl _ _ | .clearFlagsEventMask _ => some kindClearFlags
  | .headEnableOff _ | .headEnableOn _ _ => some kindHeadEnable
  | .clearStall _ => some kindClearStall
  | .closePack _ => some kindClosePack
  | .lockNext => some kindLockNext
  | .clearCounters => some kindClearCounters
  | .unknownRequest kind _ => some kind
  | _ => none

/-- The row of a LOAD of a verified-set table. -/
def CalTable.loadRow (t : CalTable) (segment : Byte) (data : List Byte) : Instr :=
  match t with
  | .widths => .loadWidths segment data
  | .mask => .loadMask segment data
  | .conditioning => .loadConditioning segment data

/-- The row of a READ of a verified-set table. -/
def CalTable.readRow (t : CalTable) (segment : Byte) : Instr :=
  match t with
  | .widths => .readWidths segment
  | .mask => .readMask segment
  | .conditioning => .readConditioning segment

/-! ### Invariants -/

/-- The mark is at the position or ahead of it by less than 2^47 (R7). -/
def Bpu.markAhead (b : Bpu) : Prop := (b.mark - b.position).toNat < 2 ^ 47

/-- At most 2 lines are outstanding, their numbers consecutive up to the next line number (R11). -/
def Bpu.outstandingInOrder (b : Bpu) : Prop :=
  match b.outstanding with
  | [] => True
  | [o] => o.line + 1 = b.nextLine
  | [o, p] => o.line + 1 = p.line ∧ p.line + 1 = b.nextLine
  | _ => False

/-- The line queue holds at most 4 entries, the trailing fills are at most 255, and there are overflow fills only while
the trailing fills stand at 255 and the queue is full (R24, R26, R28). -/
def Lcn.queueInBounds (c : Lcn) : Prop :=
  c.queue.length ≤ 4 ∧ c.trailing ≤ 255 ∧ (0 < c.overflow → c.trailing = 255 ∧ c.queue.length = 4)

/-- The strike line is high in STRIKING and in no other state (R128); a queue holds at most 8 entries (R115); a head that is
SETTING, READY or STRIKING works on a front entry (R115, R122). -/
def Head.strikeInStriking (h : Head) : Prop :=
  (h.strikeHigh = true ↔ h.state = .striking) ∧ h.queue.length ≤ 8 ∧ (h.state.committed = true → h.queue ≠ [])

def Sth.strikesInStriking (s : Sth) : Prop := ∀ h ∈ s.heads, h.strikeInStriking

/-- The fire positions of a stamp queue strictly rise, by their modular difference (R115). -/
def queueRises (q : List StampEntry) : Prop := q.Pairwise fun a b => 0 < posDiff b.fire a.fire

/-- The fire positions of a queue lie within 2^47 pulses of one another, where modular difference orders them (R4). -/
def queueWithinHalf (q : List StampEntry) : Prop := ∃ base : Position, ∀ e ∈ q, 0 ≤ posDiff e.fire base

/-- Every entry of the HEADS table has a spacing of at least 1 pulse (R112). -/
def Sth.spacingsLegal (s : Sth) : Prop := ∀ t, s.table = some t → ∀ e ∈ t, 1 ≤ e.spacing

/-- The FIFOs of the link hold at most what they can, an IDLE transmitter has nothing to send, replies and reservations
number at most 4 with one reservation for each waiting request, and a request is owed only while they are 4
(R197, R198, R202, R203, R212 to R214). -/
structure Device.LinkInBounds (d : Device) : Prop where
  up : d.lnk.upFifo.length ≤ 4
  upIdle : d.lnk.upTx = none → d.lnk.upFifo = []
  report : d.lnk.reportFifo.length ≤ 32
  forward : d.lnk.forwardFifo.length ≤ 8
  reply : d.lnk.replyFifo.length + d.dec.reservations ≤ 4
  reserved : d.dec.reservations = d.rtk.waiting.length
  owedBound : d.dec.owed.length ≤ 16
  owedFull : d.dec.owed ≠ [] → d.lnk.replyFifo.length + d.dec.reservations = 4
  settled : d.lnk.txSettled

/-- Every UNMASKED PENDING latch has been reported, or the report FIFO is full (R173). -/
def Device.latchesReported (d : Device) : Prop := d.lct.wants = true → d.reportRoom = false

/-- The tracker between two of its steps: its current-line list is empty, and the entry under way has something left to
perform (R46 to R48). -/
def Rtk.betweenSteps (k : Rtk) : Prop :=
  k.cur = ⟨[], []⟩ ∧
    ∀ w, k.work = some w → w.done ≤ w.entry.replays ∧ (w.entry.content = .fill → w.done < w.entry.replays)

/-- Spans that are not empty and ascend with at least one cell between (section 0.6). -/
def spansApart (l : List (Nat × Nat)) : Prop := (∀ r ∈ l, r.1 ≤ r.2) ∧ l.Pairwise fun r q => r.2 + 1 < q.1

/-- The runs of a queue entry. -/
def EntryContent.runsApart : EntryContent → Prop
  | .line _ runs => spansApart (runs.map fun r => (r.first, r.last))
  | .fill => True

/-- The runs of the previous line, and of every line that waits or is under way, lie apart, and the gaps of the previous line are
not empty (section 0.6, R34, R46). -/
structure Device.LinesApart (d : Device) : Prop where
  prevRuns : spansApart (d.rtk.prev.runs.map fun r => (r.first, r.last))
  prevGaps : ∀ g ∈ d.rtk.prev.gaps, g.first ≤ g.last
  queued : ∀ e ∈ d.lcn.queue, e.content.runsApart
  underWay : ∀ w, d.rtk.work = some w → w.entry.content.runsApart

/-- Every area of the region table fits its 64 bits (R41, R55). -/
def Rtk.areasFit (k : Rtk) : Prop := ∀ r ∈ k.table, r.area ≤ 2 ^ 64 - 1

/-- The lists that stand for the fixed tables of the part have their sizes (R35, R41, R72, R98, R112, R143, R167, R171, R177,
R179). -/
structure Device.Sized (d : Device) : Prop where
  regions : d.rtk.table.length = 64
  classes : ∀ t, d.hev.terms = some t → t.classes.length = 8
  records : d.hev.store.length = 24
  headTable : ∀ t, d.sth.table = some t → t.length = 4
  heads : d.sth.heads.length = 4
  packs : d.pku.slots.length = 4
  inputTable : d.lct.table.length = 8
  inputs : d.lct.inputs.length = 8
  latches : d.lct.latches.length = 27
  mask : d.lct.mask.length = 27
  setArea : d.ccu.store.setArea.length = 3207
  active : d.ccu.active.length = 3207
  prefixSums : d.ccu.prefixSums.length = 1601
  working : d.ccu.working.length = 3207
  segments : d.ccu.segments.length = 16

/-- The word of a place of a set is there and holds one of the values of its position (R177, R178). -/
def legalAt (set : List (Option Nat)) (i : Nat) : Prop := ∃ w, set[i]? = some (some w) ∧ wordLegal (i + 1) w = true

/-- An active set marked VALID holds legal words alone, so do the segments of the working copy that are not UNSET, none of
which is UNSET while a commit is in flight; the scan divider stands at 1 to 4095 and the free-run rate at 1 to 64 (R2, R8, R9,
R177 to R183). -/
structure Device.SetsLegal (d : Device) : Prop where
  active : d.ccu.valid = true → ∀ i < 3207, legalAt d.ccu.active i
  segments : ∀ (t : CalTable) (n : Nat), n < t.segments → d.ccu.segments.getD (t.segmentIndex n) .unset ≠ .unset →
    ∀ i, t.start n ≤ i → i < t.start n + t.words n → legalAt d.ccu.working i
  committing : d.ccu.committing = true → ∀ i < 16, d.ccu.segments.getD i .unset ≠ .unset
  divider : 1 ≤ d.bpu.divider ∧ d.bpu.divider ≤ 4095
  rate : 1 ≤ d.lct.control.rate ∧ d.lct.control.rate ≤ 64

/-- The seals of the store hold the present audit count, which INIT reads back from them; no commit is in flight in INIT, nor
while LOCKED is set (R181, R182, R186 to R188). -/
structure Device.CountSealed (d : Device) : Prop where
  sealed : d.lct.lineState ≠ .init → d.ccu.store.auditCount = d.ccu.audit
  afterInit : d.lct.lineState = .init → d.ccu.committing = false
  unlocked : d.ccu.lock.locked = true → d.ccu.committing = false

/-- The store stands at the stage of a commit (R182, R184, R185): at rest with none in flight; with one, its target seal is blank, while
it erases some word is blank, and while it writes the set area holds the words written. -/
structure Device.StoreInStage (d : Device) : Prop where
  resting : d.ccu.stage = .resting ↔ d.ccu.committing = false
  target : d.ccu.committing = true → (if d.ccu.target = 0 then d.ccu.store.seal0 else d.ccu.store.seal1) = none
  erasing : d.ccu.stage = .erasing → none ∈ d.ccu.store.setArea
  writing : ∀ n, d.ccu.stage = .writing n → n ≤ d.ccu.working.length ∧ d.ccu.store.setArea = d.ccu.writtenArea n

/-- A row that is no supply event and no end of INIT: POWER_ON, RESET_PIN, POWER_LOSS and END_OF_INIT set the part anew. -/
def whileRunning : Instr → Bool
  | .powerOn | .resetPin | .powerLoss | .endOfInit _ _ _ _ => false
  | _ => true

end Sys2Proof.Machine
end

