-- ==== Sys2Proof/Certificates/Slice0/Obligations.lean ====
section
/-!
DEFINITION. The statements for the provers: what the commands and the machine do, by the rules of spec/.
An event ends with the LCT's ask for a report place (R173): a statement writes the state after it as askEventPlace of the
device that the event's own effect leaves, and a request's as replied, its reply placed first (R212).
-/

open Sys2Proof Sys2Proof.Machine

/-! ### The machine, power and INIT -/

/-- A step takes the command at the front of the queue; with none waiting the block idles (log 2). -/
def Obligations.StepPerformsTheFrontCommand : Prop :=
  ∀ (c : Instr) (d : Device) (rest : List Instr),
    step ⟨d, c :: rest⟩ = exec c ⟨d, rest⟩ ∧ step ⟨d, []⟩ = .next ⟨d, []⟩

/-- Every command answers a next state and leaves the queue alone. Without a supply or in INIT, no command but the supply's, the
end of INIT and the tick has an effect (R18, R156, R195; log 12). -/
def Obligations.EveryCommandAnswersNextAndOutOfServiceIdles : Prop :=
  (∀ (c : Instr) (s : State), ∃ t, exec c s = .next ⟨t, s.pending⟩) ∧
  (∀ (c : Instr) (s : State), whileRunning c = true → c ≠ .tick → ¬ s.dev.InService → exec c s = .next s)

/-- What power-on and the reset pin set in every block, and that the calibration store is kept when no commit is in flight; loss
of power keeps the calibration store and nothing else (R18, R39, R70, R95, R141, R153, R176, R185, R192, R205, R226; log 30). The
divider at 4095 and the encoder and input levels LOW before the end of INIT are the model's choice (log 13). -/
def Obligations.PowerEventsSetEveryBlockAndKeepTheStore : Prop :=
  (∀ s : State, ∃ t : Device,
    exec .powerOn s = .next ⟨t, s.pending⟩ ∧
      exec .resetPin s = .next (if s.dev.powered then ⟨t, s.pending⟩ else s) ∧
      t.powered = true ∧
      t.bpu = ⟨0, .forward, 0, 4095, 0, [], none, 0, false, false, 0, false⟩ ∧
      t.lcn = ⟨0, 0, 0, ⟨0, 0⟩, [], none, 0, 0, 0⟩ ∧
      t.rtk =
        ⟨(List.range 64).map (Region.cleared .leather), List.range 64, ⟨[], []⟩, none, ⟨[], []⟩, 0, false, 0, [], none⟩ ∧
      t.hev = ⟨none, 0, 1, List.replicate 24 none, 0, 0⟩ ∧
      t.sth = ⟨none, List.replicate 4 ⟨.disabled, [], false, false, none, none, none, false⟩⟩ ∧
      t.pku = ⟨List.replicate 4 ⟨none, none⟩, 1⟩ ∧
      t.lct =
        ⟨.init, .none, ⟨false, false, false, 1⟩, List.replicate 8 ⟨.unused, false, false, false, 0⟩,
          List.replicate 8 ⟨false, false, none⟩, false, false, List.replicate 27 .clear, List.replicate 27 false⟩ ∧
      t.lnk = ⟨.hunting, .hunting, [], [], [], [], none, none, none, 0, 0, 0, 0⟩ ∧
      t.dec = ⟨0, []⟩ ∧
      t.ccu.committing = false ∧ t.ccu.stage = .resting ∧ t.ccu.commitTimer = none ∧ t.ccu.lastResult = .none ∧ t.ccu.promotionPending = false ∧
      (s.dev.ccu.committing = false → t.ccu.store = s.dev.ccu.store)) ∧
  (∀ s : State, ∃ t : Device,
    exec .powerLoss s = .next (if s.dev.powered then ⟨t, s.pending⟩ else s) ∧
      t = { Device.reset t.ccu.store t.draws with powered := false } ∧
      (s.dev.ccu.committing = false → t.ccu.store = s.dev.ccu.store))

/-- A commit cut off by loss of power or the reset pin leaves the store where it stands: its target seal blank, the other seal and the
lock cell as they were, and a store that is not valid, with the audit count unchanged. Once every word is written, the seal may have
been written too: the store then holds the new set with its seal, and is valid with the raised count (R185, R192; log 24).
In each millisecond of a commit the store goes on through the erase and the write of R182: while it erases, a word is blank or as it
was; then the first words of the working copy stand and the rest are blank, an area that matches no seal (log 7). -/
def Obligations.CutCommitLeavesNoValidStore : Prop :=
  (∀ (s : State) (c : Instr), c = .powerLoss ∨ c = .resetPin → s.dev.powered = true → s.dev.ccu.committing = true →
    s.dev.Sized → s.dev.StoreInStage → s.dev.ccu.store.auditCount = s.dev.ccu.audit →
    ∃ t : Device, exec c s = .next ⟨t, s.pending⟩ ∧
      ((t.ccu.store = s.dev.ccu.store ∧
        (if s.dev.ccu.target = 0 then t.ccu.store.seal0 else t.ccu.store.seal1) = none ∧
        t.ccu.store.isValid = false ∧ t.ccu.store.auditCount = s.dev.ccu.audit) ∨
      (s.dev.ccu.stage = .writing 3207 ∧
        t.ccu.store = { s.dev.ccu.store.setSeal s.dev.ccu.target
          (some ⟨s.dev.ccu.audit + 1, checkSum s.dev.ccu.working⟩) with setArea := s.dev.ccu.working } ∧
        t.ccu.store.auditCount = s.dev.ccu.audit + 1 ∧ (s.dev.SetsLegal → t.ccu.store.isValid = true)))) ∧
  ∀ (draws : Nat) (c : Ccu), c.store.setArea.length = 3207 → c.working.length = 3207 →
    let t := c.storeWorks draws
    let area := t.store.setArea
    t = { c with stage := t.stage, store := { c.store with setArea := area } } ∧
      (c.stage = .resting → t = c) ∧
      (c.stage = .erasing →
        (t.stage = .erasing ∧ none ∈ area ∧ ∀ i < 3207, area[i]? = some none ∨ area[i]? = c.store.setArea[i]?) ∨
          ∃ n ≤ 3207, t.stage = .writing n) ∧
      (∀ n ≤ 3207, c.stage = .writing n → ∃ m, n ≤ m ∧ m ≤ 3207 ∧ t.stage = .writing m) ∧
      ∀ m ≤ 3207, t.stage = .writing m →
        matchesSeal area c.store.seal0 = false ∧ matchesSeal area c.store.seal1 = false ∧
          (∀ i < 3206, area[i]? = if i < m then c.working[i]? else some none) ∧
          (area[3206]? = some none ∨ (m = 3207 ∧ area[3206]? = c.working[3206]?))

/-- The end of INIT: the store is judged, the active set, working copy, audit count and lock are set from it, the line
becomes IDLE, and CAL_INVALID is raised when the store was found invalid (R9, R18, R156, R176, R186, R188, R192). -/
def Obligations.EndOfInitLoadsTheStore : Prop :=
  ∀ (a b fitted : Bool) (inputs : BitVec 8) (s : State), s.dev.powered = true → s.dev.lct.lineState = .init →
    ∃ u : Device, exec (.endOfInit a b fitted inputs) s = .next ⟨u.askEventPlace, s.pending⟩ ∧
      Touches [.ccu, .bpu, .lct] s.dev u ∧
      u.ccu =
        { s.dev.ccu with
          store := { s.dev.ccu.store with
            lockCell := some ⟨false, !fitted && (s.dev.ccu.lock.locked || s.dev.ccu.lock.lockNext)⟩ }
          audit := s.dev.ccu.store.auditCount
          active := s.dev.ccu.store.setArea
          valid := s.dev.ccu.store.isValid
          prefixSums := prefixSumsOf s.dev.ccu.store.setArea
          working := if s.dev.ccu.store.isValid then s.dev.ccu.store.setArea else s.dev.ccu.store.setArea.map fun _ => none
          segments := List.replicate 16 (if s.dev.ccu.store.isValid then .same else .unset)
          promotionPending := false
          strapFitted := fitted } ∧
      u.bpu =
        { s.dev.bpu with encA := a, encB := b, divider := if s.dev.ccu.store.isValid then u.ccu.ppl else 4095 } ∧
      u.lct =
        (let l := { s.dev.lct with
          lineState := .idle
          inputs := inputNumbers.map fun (n : Fin 8) => ⟨inputs.getLsbD n, inputs.getLsbD n, none⟩ }
        if s.dev.ccu.store.isValid then l else l.raise .calInvalid)

/-! ### The belt position unit -/

/-- Each change of one encoder channel is one pulse with the direction of R1's table; a change of both gives none. In FREE_RUN
the levels are followed and no pulse is taken from them (R1, R3); the free-run source then gives its pulses FORWARD while the
line is RUNNING, and none otherwise (R2). -/
def Obligations.PulseSourcesGiveTheirPulses : Prop :=
  (∀ (a b : Bool) (s : State), s.dev.InService →
    let d := { s.dev with bpu := { s.dev.bpu with encA := a, encB := b } }
    (s.dev.lct.control.freeRun = false →
      (a ≠ s.dev.bpu.encA → b = s.dev.bpu.encB → a ≠ b →
        exec (.encoderEdge a b) s = .next ⟨(d.pulse .forward).askEventPlace, s.pending⟩) ∧
      (a = s.dev.bpu.encA → b ≠ s.dev.bpu.encB → b = a →
        exec (.encoderEdge a b) s = .next ⟨(d.pulse .forward).askEventPlace, s.pending⟩) ∧
      (a ≠ s.dev.bpu.encA → b = s.dev.bpu.encB → a = b →
        exec (.encoderEdge a b) s = .next ⟨(d.pulse .reverse).askEventPlace, s.pending⟩) ∧
      (a = s.dev.bpu.encA → b ≠ s.dev.bpu.encB → b ≠ a →
        exec (.encoderEdge a b) s = .next ⟨(d.pulse .reverse).askEventPlace, s.pending⟩) ∧
      ((a ≠ s.dev.bpu.encA ↔ b ≠ s.dev.bpu.encB) →
        exec (.encoderEdge a b) s = .next ⟨d.askEventPlace, s.pending⟩)) ∧
    (s.dev.lct.control.freeRun = true → exec (.encoderEdge a b) s = .next ⟨d.askEventPlace, s.pending⟩)) ∧
  (∀ s : State, s.dev.InService →
    (s.dev.lct.lineState = .running → s.dev.lct.control.freeRun = true → 0 < s.dev.bpu.freeRunLeft →
      exec .freeRunPulse s =
        .next ⟨(Device.pulse .forward { s.dev with
          bpu := { s.dev.bpu with freeRunLeft := s.dev.bpu.freeRunLeft - 1 } }).askEventPlace, s.pending⟩) ∧
    (s.dev.lct.lineState ≠ .running ∨ s.dev.lct.control.freeRun = false ∨ s.dev.bpu.freeRunLeft = 0 →
      exec .freeRunPulse s = .next ⟨s.dev.askEventPlace, s.pending⟩))

/-- What a pulse moves: position, mark and direction, with REVERSE raised at the first reverse pulse, and nothing else of
the BPU on a REVERSE pulse (R4, R6, R7). -/
def Obligations.PulseMovesPositionMarkAndDirection : Prop :=
  ∀ d : Device,
    ((d.pulse .forward).bpu.position = d.bpu.position + 1 ∧ (d.pulse .forward).bpu.direction = .forward ∧
      (d.pulse .forward).bpu.mark = (if d.bpu.position = d.bpu.mark then d.bpu.mark + 1 else d.bpu.mark) ∧
      Touches [.bpu, .lcn, .lct, .sth, .hev, .rtk, .lnk, .dec, .draws] d (d.pulse .forward)) ∧
    d.pulse .reverse =
      { (if d.bpu.direction = .forward then d.raise .reverse else d) with
        bpu := { d.bpu with
          position := d.bpu.position - 1
          mark := if (d.bpu.mark - d.bpu.position).toNat = 2 ^ 47 - 1 then d.bpu.mark - 1 else d.bpu.mark
          direction := .reverse } }

/-- A new-belt pulse in RUNNING lowers the divider; at 0 the trigger gives the next line its number and position, retires
the older of two outstanding lines as missed, and loads the divider. Any other FORWARD pulse leaves all three (R8 to R12). That the
stages after a retirement that pauses the line are taken all the same is the model's choice (log 35). -/
def Obligations.NewBeltPulseCountsAndTriggers : Prop :=
  ∀ d : Device,
    let t := d.pulse .forward
    let counts := d.lct.lineState = .running ∧ d.bpu.position = d.bpu.mark
    (¬ counts → t.bpu.divider = d.bpu.divider ∧ t.bpu.outstanding = d.bpu.outstanding ∧
      t.bpu.nextLine = d.bpu.nextLine ∧ t.lcn = d.lcn ∧ t.lct = d.lct) ∧
    (counts → 1 < d.bpu.divider → t.bpu.divider = d.bpu.divider - 1 ∧ t.bpu.outstanding = d.bpu.outstanding ∧
      t.bpu.nextLine = d.bpu.nextLine ∧ t.lcn = d.lcn ∧ t.lct = d.lct) ∧
    (counts → d.bpu.divider = 1 → d.bpu.outstanding.length ≤ 2 →
      t.bpu.divider = (if d.ccu.valid then d.ccu.ppl else 4095) ∧ t.bpu.nextLine = d.bpu.nextLine + 1 ∧
      t.bpu.outstanding =
        (if d.bpu.outstanding.length = 2 then d.bpu.outstanding.drop 1 else d.bpu.outstanding) ++
          [⟨d.bpu.nextLine, t.bpu.mark⟩] ∧
      t.lcn.missed = (if d.bpu.outstanding.length = 2 then sat16 d.lcn.missed 1 else d.lcn.missed))

/-- The tick raises the uptime, runs every time-out on, lets the free-run source give its rate of pulses, and lets a store at work on a
commit work on by a free amount, which CutCommitLeavesNoValidStore bounds (R2, R15, R182; log 7). A time-out
of n ms, n at least 1, is due at the n-th tick when it was started at a tick, and at the (n + 1)-th when it was started between
two, and not before (R16). -/
def Obligations.TickRunsUptimeAndEveryTimeoutToItsLength : Prop :=
  (∀ s : State,
    (s.dev.powered = false → exec .tick s = .next s) ∧
    (s.dev.powered = true → ∃ t : Device, exec .tick s = .next ⟨t, s.pending⟩ ∧
      Touches [.bpu, .sth, .lct, .ccu, .lnk, .draws] s.dev t ∧
      t.bpu =
        { s.dev.bpu with
          uptime := s.dev.bpu.uptime + 1
          pauseTimer := Timer.tick s.dev.bpu.pauseTimer
          freeRunLeft :=
            if s.dev.lct.lineState = .running ∧ s.dev.lct.control.freeRun = true then s.dev.lct.control.rate else 0 } ∧
      t.sth = { s.dev.sth with heads := s.dev.sth.heads.map fun h => { h with timer := Timer.tick h.timer } } ∧
      t.lct = { s.dev.lct with inputs := s.dev.lct.inputs.map fun i => { i with timer := Timer.tick i.timer } } ∧
      t.ccu = { s.dev.ccu.storeWorks s.dev.draws with commitTimer := Timer.tick s.dev.ccu.commitTimer } ∧
      t.lnk =
        { s.dev.lnk with
          upReceiver := s.dev.lnk.upReceiver.tick
          downReceiver := s.dev.lnk.downReceiver.tick
          assembly := s.dev.lnk.assembly.map fun a => { a with timeout := Timer.tick a.timeout } })) ∧
  (∀ n k : Nat, 1 ≤ n →
    (((Timer.start n true).after k).due = true ↔ n ≤ k) ∧ (((Timer.start n false).after k).due = true ↔ n + 1 ≤ k))

/-- When the pause retirement timer is due, every outstanding line leaves the list and is declared missed, oldest first, and
the timer stops; when it is not, nothing happens (R14). -/
def Obligations.PauseRetirementDeclaresEveryLine : Prop :=
  ∀ s : State, s.dev.InService →
    (s.dev.bpu.pauseTimer.due = false → exec .pauseRetirementExpiry s = .next ⟨s.dev.askEventPlace, s.pending⟩) ∧
    (s.dev.bpu.pauseTimer.due = true → ∃ u : Device,
      exec .pauseRetirementExpiry s = .next ⟨u.askEventPlace, s.pending⟩ ∧
      u = s.dev.bpu.outstanding.foldl (fun d o => d.declareMissed o)
        { s.dev with bpu := { s.dev.bpu with outstanding := [], pauseTimer := none } } ∧
      u.bpu.outstanding = [] ∧ u.bpu.pauseTimer = none ∧
      (s.dev.bpu.outstanding ≠ [] →
        u.lcn.missed = min 65535 (s.dev.lcn.missed + s.dev.bpu.outstanding.length)) ∧
      Touches [.lcn, .bpu, .lct] s.dev u)

/-! ### The line conditioner -/

/-- The device as a LINE frame finds it: the upstream receiver hunts again, and with FWD_LINES set a copy of the frame has
gone to the downstream forward FIFO. In IDLE it is stray; shorter than 8 bytes it is malformed; naming a line that is not
outstanding it is stray; and nothing else of the conditioner or the list changes (R21, R22, R198). -/
def Obligations.LineFrameThatIsNotTaken : Prop :=
  ∀ (source : Byte) (payload : List Byte) (s : State), s.dev.InService →
    let d := if s.dev.lct.control.fwdLines then s.dev.heardUp.forwardDown ⟨kindLine, source, payload⟩ else s.dev.heardUp
    (s.dev.lct.lineState = .idle →
      exec (.lineFrame source payload) s =
        .next ⟨({ d with lcn := { d.lcn with stray := sat16 d.lcn.stray 1 } }).askEventPlace, s.pending⟩) ∧
    (s.dev.lct.lineState ≠ .idle → payload.length < 8 →
      exec (.lineFrame source payload) s =
        .next ⟨({ d with lcn := { d.lcn with malformed := sat16 d.lcn.malformed 1 } }).askEventPlace, s.pending⟩) ∧
    (s.dev.lct.lineState ≠ .idle → 8 ≤ payload.length →
      (∀ o ∈ s.dev.bpu.outstanding, o.line ≠ lineNumberOf payload) →
      exec (.lineFrame source payload) s =
        .next ⟨({ d with lcn := { d.lcn with stray := sat16 d.lcn.stray 1 } }).askEventPlace, s.pending⟩)

/-- A LINE frame for an outstanding line: the older lines leave as missed, the line leaves the list, and it is queued with
its conditioned runs and the trailing fills, or missed when its frame is malformed, carries OVERFLOW, has more than 64 runs
after conditioning, or finds the queue full or overflow fills (R13, R22 to R25, R34). -/
def Obligations.LineFrameForAnOutstandingLine : Prop :=
  ∀ (source : Byte) (payload : List Byte) (s : State) (older newer : List Outstanding) (pos : Position),
    s.dev.InService → s.dev.lct.lineState ≠ .idle → 8 ≤ payload.length →
    s.dev.bpu.outstanding = older ++ ⟨lineNumberOf payload, pos⟩ :: newer →
    (∀ o ∈ older, o.line ≠ lineNumberOf payload) →
    let n := lineNumberOf payload
    let d := if s.dev.lct.control.fwdLines then s.dev.heardUp.forwardDown ⟨kindLine, source, payload⟩ else s.dev.heardUp
    let e : Device := older.foldl (fun d o => d.declareMissed o)
      { d with bpu := { d.bpu with outstanding := ⟨n, pos⟩ :: newer } }
    let e : Device := { e with bpu := { e.bpu with
      outstanding := newer, pauseTimer := if newer = [] then none else e.bpu.pauseTimer } }
    ∃ u : Device, exec (.lineFrame source payload) s = .next ⟨u.askEventPlace, s.pending⟩ ∧
      match parseLine payload with
      | none => u = Device.declareMissed ⟨n, pos⟩ { e with lcn := { e.lcn with malformed := sat16 e.lcn.malformed 1 } }
      | some (status, barRuns) =>
        let runs := e.ccu.condition barRuns
        if lineOverflow payload = true ∨ 64 < runs.length ∨ 4 ≤ e.lcn.queue.length ∨ 0 < e.lcn.overflow then
          u = e.declareMissed ⟨n, pos⟩
        else
          u = { e with lcn := { e.lcn with
            queue := e.lcn.queue ++ [⟨.line status runs, n, pos, e.lcn.trailing⟩], trailing := 0, expected := n + 1 } }

/-- Each missed-line declaration counts the line, becomes the last declaration and raises LINE_MISSED; below 255 it raises the
trailing fills, and at 255 the overflow fills, after which the place in the queue is tested at once (R24, R27). With overflow fills and room in the queue, one FILL entry carrying 256
missed lines is placed, with the position that its line's declaration would give, and what is left is split again (R28). -/
def Obligations.MissedLinesAreCountedAndCarriedByFillEntries : Prop :=
  (∀ (o : Outstanding) (d : Device),
    let t := d.declareMissed o
    Touches [.lcn, .bpu, .lct] d t ∧ t.lcn.missed = sat16 d.lcn.missed 1 ∧ t.lcn.lastDeclared = o ∧
      (d.lcn.trailing < 254 →
        t.lcn = { d.lcn with missed := sat16 d.lcn.missed 1, lastDeclared := o, trailing := d.lcn.trailing + 1 } ∧
        t.lct = d.lct.raise .lineMissed ∧ t.bpu = d.bpu) ∧
      (d.lcn.trailing = 254 →
        t.lcn = { d.lcn with missed := sat16 d.lcn.missed 1, lastDeclared := o, trailing := 255 } ∧
        t.lct =
          (let l := (d.lct.raise .lineMissed).raise .lineLoss
          if d.lct.lineState = .running then { l with lineState := .paused, haltCause := .lineLoss } else l)) ∧
      (d.lcn.trailing = 255 → d.lcn.queue.length = 4 → d.lcn.overflow < 2 ^ 32 - 1 →
        t.lcn =
          { d.lcn with missed := sat16 d.lcn.missed 1, lastDeclared := o, overflow := d.lcn.overflow + 1 } ∧
        t.lct = d.lct.raise .lineMissed ∧ t.bpu = d.bpu) ∧
      (d.lcn.trailing = 255 → d.lcn.queue.length < 4 → d.lcn.overflow < 2 ^ 32 - 1 →
        t = Device.placeFillEntry { d with
          lcn := { d.lcn with missed := sat16 d.lcn.missed 1, lastDeclared := o, overflow := d.lcn.overflow + 1 }
          lct := d.lct.raise .lineMissed })) ∧
  (∀ d : Device, 0 < d.lcn.overflow → d.lcn.queue.length < 4 →
    let t := d.placeFillEntry
    let line := d.lcn.expected + 255
    let left := d.lcn.overflow - 1
    t.lcn.queue = d.lcn.queue ++ [⟨.fill, line, d.lcn.lastDeclared.pos -
        BitVec.ofNat 48 ((d.lcn.lastDeclared.line - line).toNat * d.ccu.ppl), 255⟩] ∧
      t.lcn.expected = d.lcn.expected + 256 ∧ t.lcn.trailing = min left 255 ∧ t.lcn.overflow = left - min left 255 ∧
      t.lct =
        (if 255 ≤ left then
          let l := d.lct.raise .lineLoss
          if d.lct.lineState = .running then { l with lineState := .paused, haltCause := .lineLoss } else l
        else d.lct) ∧
      Touches [.lcn, .bpu, .lct] d t)

/-- The mask: FORCE_OFF cells are background, NORMAL cells keep their value, and a span of FILL cells takes its value from
the cells beside it (R31). -/
def Obligations.MaskGivesEachCellItsValue : Prop :=
  ∀ (mask : List Nat) (row : List Bool), mask.length = row.length → (∀ m ∈ mask, m ≤ 2) →
    let out := applyMask mask row
    let first := forceOff mask row
    out.length = row.length ∧
      (∀ i < row.length, mask[i]? = some 1 → out[i]? = some false) ∧
      (∀ i < row.length, mask[i]? = some 0 → out[i]? = row[i]?) ∧
      ∀ a b : Nat, a ≤ b → b < row.length → (∀ i, a ≤ i → i ≤ b → mask[i]? = some 2) →
        (a = 0 ∨ mask[a - 1]? ≠ some 2) → (b + 1 = row.length ∨ mask[b + 1]? ≠ some 2) →
        ∀ i, a ≤ i → i ≤ b →
          out[i]? = some
            (if a = 0 then (if b + 1 = row.length then false else first.getD (b + 1) false)
            else if b + 1 = row.length then first.getD (a - 1) false
            else first.getD (a - 1) false && first.getD (b + 1) false)

/-- The runs of a row are its maximal leather spans, ascending (section 0.6, R30). Bridging sets exactly the background spans of
1 to B cells that have leather on both sides, all judged together (R32); the speck filter then removes exactly the runs of 1 to
K cells (R33). A bar run list is conditioned in this order: its cells, mirror, mask, bridge, speck, and the widths of the runs
that are left (R30 to R34). -/
def Obligations.RunsBridgingAndSpecksDecideEachCell : Prop :=
  (∀ row : List Bool,
    (∀ c : Nat, row[c]? = some true ↔ ∃ r ∈ runsOfRow 0 row, r.1 ≤ c ∧ c ≤ r.2) ∧
      (runsOfRow 0 row).Pairwise (fun r q => r.2 + 2 ≤ q.1) ∧ ∀ r ∈ runsOfRow 0 row, r.1 ≤ r.2 ∧ r.2 < row.length) ∧
  (∀ (bridge speck : Nat) (runs : List (Nat × Nat)),
    (∀ r ∈ runs, r.1 ≤ r.2) → runs.Pairwise (fun r q => r.2 + 2 ≤ q.1) →
    (∀ c : Nat, (∃ r ∈ bridgeRuns bridge runs, r.1 ≤ c ∧ c ≤ r.2) ↔
      (∃ r ∈ runs, r.1 ≤ c ∧ c ≤ r.2) ∨
        ∃ (front back : List (Nat × Nat)) (r q : Nat × Nat), runs = front ++ r :: q :: back ∧ r.2 < c ∧ c < q.1 ∧
          q.1 - r.2 - 1 ≤ bridge) ∧
      (bridgeRuns bridge runs).Pairwise (fun r q => r.2 + bridge + 2 ≤ q.1) ∧
      ∀ r, r ∈ dropSpecks speck (bridgeRuns bridge runs) ↔ r ∈ bridgeRuns bridge runs ∧ speck < r.2 - r.1 + 1) ∧
  ∀ (c : Ccu) (barRuns : List (Nat × Nat)),
    let row := (List.range 1600).map fun cell => barRuns.any fun r => r.1 ≤ cell && cell ≤ r.2
    let mirrored := if c.word 3204 = 1 then row.reverse else row
    let mask := ((c.active.drop 1600).take 1600).map fun w => w.getD 0
    let runs := dropSpecks (c.word 3205) (bridgeRuns (c.word 3206) (runsOfRow 0 (applyMask mask mirrored)))
    c.condition barRuns = runs.map fun r => ⟨r.1, r.2, c.prefixSums.getD (r.2 + 1) 0 - c.prefixSums.getD r.1 0⟩

/-! ### The region tracker -/

/-- LINE_OPERATION: the tracker between lines, what waits having been served, takes the oldest queue entry and performs its
fills and its line; with an entry under way it performs what is left of it. The tracker is then between lines again, and
the previous line is the entry's. Without terms, or with nothing to take, nothing happens (R26, R47, R48, R66; log 14).
Performing an entry is each of its fills in turn, then its line on its own runs. A line operation takes its runs through stage 2;
sums, edges and anchors in stage 3, where a fill also raises the interpolated lines of each root it touches; the gaps in stage 4;
and stages 5 to 7 on the table that they leave. It then raises TABLE_EXHAUSTED when a run or gap found no entry, offers every
CLOSED_WAIT entry, and leaves its list as the previous line with no entry touched (R45, R47, R48, R55 to R66). -/
def Obligations.LineOperationPerformsTheEntry : Prop :=
  (∀ (t : Terms) (d : Device),
    (d.rtk.work = none → d.performEntry t = d) ∧
    ∀ w : Work, d.rtk.work = some w →
      (w.done < w.entry.replays → d.performEntry t = (d.replayOne t w).performEntry t) ∧
      ∀ status runs, w.done = w.entry.replays → w.entry.content = .line status runs →
        let e := d.lineOperation ⟨w.entry.line, w.entry.pos, false, d.ccu.prefixSums, d.ccu.pitch, d.ccu.diagJoin, t.setback,
          t.minAnchor⟩ runs
        d.performEntry t = { e with rtk := { e.rtk with work := none } }) ∧
  (∀ (c : LineContext) (runs : List Run) (d : Device),
    let k := d.rtk.stages2to7 c runs
    let e := { d with rtk := k }
    let e := if ∃ x ∈ k.cur.runs ++ k.cur.gaps, x.label = .untracked then e.raise .tableExhausted else e
    let e := k.walkOrder.foldl Device.offer { e with rtk := { k with retryPending := false } }
    d.lineOperation c runs = { e with rtk := { e.rtk with
      table := e.rtk.table.map fun r => { r with touched := false }
      prev := e.rtk.cur
      prevLine := some ⟨c.line, c.pos⟩
      cur := ⟨[], []⟩
      linesProcessed := if c.isFill then e.rtk.linesProcessed else min (e.rtk.linesProcessed + 1) 65535 } }) ∧
  (∀ (c : LineContext) (runs : List Run) (k : Rtk),
    let k2 := runs.foldl (Rtk.matchRun c) k
    let summed := k2.cur.runs.foldl Rtk.markEdge (k2.cur.runs.foldl (Rtk.accumulate c) k2)
    let k3 := summed.touchedRoots.foldl (Rtk.pushAnchor c) summed
    let k3 := if c.isFill then summed.touchedRoots.foldl Rtk.countFill k3 else k3
    let k4 := (gapsOf c.sums k3.cur.runs).foldl (Rtk.matchGap c) k3
    let k4 := k4.cur.gaps.foldl (Rtk.accumulate c) k4
    k.stages2to7 c runs = (k4.stage5.stage6 c.line).stage7 false) ∧
  ∀ s : State, s.dev.InService → s.dev.rtk.cur = ⟨[], []⟩ →
    (∀ t : Terms, s.dev.hev.terms = some t →
      (∀ (e : QueueEntry) (rest : List QueueEntry), s.dev.rtk.work = none → s.dev.settle.lcn.queue = e :: rest →
        ∃ u : Device, exec .lineOperation s = .next ⟨u.askEventPlace, s.pending⟩ ∧
          u = s.dev.settle.takeEntry.performEntry t ∧
          s.dev.settle.takeEntry.rtk = { s.dev.settle.rtk with work := some ⟨e, 0⟩ } ∧
          u.lcn = (Device.placeFillEntry { s.dev.settle with lcn := { s.dev.settle.lcn with
            queue := rest
            lastStatus := match e.content with | .line status _ => some status | .fill => s.dev.settle.lcn.lastStatus } }).lcn ∧
          u.rtk.work = none ∧ u.rtk.cur = ⟨[], []⟩ ∧ u.rtk.prevLine = some ⟨e.line, e.pos⟩ ∧
          (u.rtk.prev.runs.map fun r => (r.first, r.last, r.width)) =
            (match e.content with
              | .line _ runs => runs.map fun r => (r.first, r.last, r.width)
              | .fill => s.dev.settle.rtk.prev.runs.map fun r => (r.first, r.last, r.width)) ∧
          u.rtk.linesProcessed =
            (match e.content with
              | .line _ _ => sat16 s.dev.settle.rtk.linesProcessed 1
              | .fill => s.dev.settle.rtk.linesProcessed) ∧
          Touches [.rtk, .hev, .sth, .pku, .lnk, .dec, .lct, .lcn, .bpu] s.dev.settle u) ∧
      (∀ w : Work, s.dev.rtk.work = some w → (w.entry.content = .fill → w.done < w.entry.replays) →
        ∃ u : Device, exec .lineOperation s = .next ⟨u.askEventPlace, s.pending⟩ ∧ u = s.dev.performEntry t ∧
          u.rtk.work = none ∧ u.rtk.cur = ⟨[], []⟩ ∧ u.rtk.prevLine = some ⟨w.entry.line, w.entry.pos⟩ ∧
          Touches [.rtk, .hev, .sth, .pku, .lnk, .dec, .lct] s.dev u) ∧
      (s.dev.rtk.work = none → s.dev.settle.lcn.queue = [] →
        exec .lineOperation s = .next ⟨s.dev.askEventPlace, s.pending⟩)) ∧
    (s.dev.hev.terms = none → exec .lineOperation s = .next ⟨s.dev.askEventPlace, s.pending⟩)

/-- FILL: one replay of the entry under way, or of the entry taken, under its own line number and position: the runs of the
previous line are performed again as one line operation, a fill's, and lines processed is kept (R48; log 14). -/
def Obligations.FillReplaysThePreviousLine : Prop :=
  ∀ (s : State) (t : Terms), s.dev.InService → s.dev.rtk.cur = ⟨[], []⟩ → s.dev.hev.terms = some t →
    ∀ (d : Device) (w : Work),
      (s.dev.rtk.work = some w ∧ w.done < w.entry.replays ∧ d = s.dev) ∨
        (s.dev.rtk.work = none ∧ (∃ rest, s.dev.settle.lcn.queue = w.entry :: rest) ∧ w.done = 0 ∧
          0 < w.entry.replays ∧ d = s.dev.settle.takeEntry) →
      ∃ u : Device, exec .fill s = .next ⟨u.askEventPlace, s.pending⟩ ∧ u = d.replayOne t w ∧
        (let back := w.entry.fillsBefore - w.done
        let c : LineContext := ⟨w.entry.line - BitVec.ofNat 32 back, w.entry.pos - BitVec.ofNat 48 (back * d.ccu.ppl), true,
          d.ccu.prefixSums, d.ccu.pitch, d.ccu.diagJoin, t.setback, t.minAnchor⟩
        let v := d.lineOperation c (d.rtk.prev.runs.map fun r => ⟨r.first, r.last, r.width⟩)
        u = { v with rtk := { v.rtk with work := u.rtk.work } }) ∧
        (let back := w.entry.fillsBefore - w.done
        u.rtk.prevLine =
          some ⟨w.entry.line - BitVec.ofNat 32 back, w.entry.pos - BitVec.ofNat 48 (back * d.ccu.ppl)⟩) ∧
        (u.rtk.prev.runs.map fun r => (r.first, r.last, r.width)) =
          (d.rtk.prev.runs.map fun r => (r.first, r.last, r.width)) ∧
        u.rtk.linesProcessed = d.rtk.linesProcessed ∧ u.rtk.cur = ⟨[], []⟩ ∧
        u.rtk.work = (if w.entry.content = .fill ∧ w.done + 1 = w.entry.replays then none
          else some { w with done := w.done + 1 }) ∧
        Touches [.rtk, .hev, .sth, .pku, .lnk, .dec, .lct] d u

/-- OFFER_WALK: between lines with retry pending set, retry pending is cleared and every CLOSED_WAIT entry is offered once,
by born position and then by index; an entry that is scrapped or taken is released, one that is refused waits (R64, R65).
The order is stated for born positions that lie within 2^47 pulses of one another, where modular comparison orders them. -/
def Obligations.OfferWalkOffersEveryWaitingEntry : Prop :=
  (∀ s : State, s.dev.InService → s.dev.rtk.work = none →
    (s.dev.rtk.retryPending = true →
      exec .offerWalk s =
        .next ⟨(s.dev.rtk.walkOrder.foldl Device.offer
          { s.dev with rtk := { s.dev.rtk with retryPending := false } }).askEventPlace, s.pending⟩) ∧
    (s.dev.rtk.retryPending = false → exec .offerWalk s = .next ⟨s.dev.askEventPlace, s.pending⟩)) ∧
  (∀ (k : Rtk), k.walkOrder.Perm ((List.range 64).filter fun i => (k.region i).state == .closedWait) ∧
    ∀ base : Position, (∀ i ∈ k.walkOrder, ((k.region i).born - base).toNat < 2 ^ 47) →
      k.walkOrder.Pairwise fun i j => ((k.region i).born - base).toNat < ((k.region j).born - base).toNat ∨
        ((k.region i).born = (k.region j).born ∧ i < j)) ∧
  (∀ (d : Device) (i : Nat),
    (d.evaluate (d.rtk.region i)).1 = .refuse → d.offer i = (d.evaluate (d.rtk.region i)).2) ∧
  ∀ (d : Device) (i : Nat), i < d.rtk.table.length → (d.evaluate (d.rtk.region i)).1 ≠ .refuse →
    (d.offer i).rtk.region i = Region.cleared (d.rtk.region i).kind i ∧ (d.offer i).rtk.stack = i :: d.rtk.stack

/-- The hole test: a closing gap is a hole of a leather root when its top was covered and every one of its last-line gaps is
bounded left and right on the previous line, and covered on the current line, by runs that all carry that root's label
(R60); the hole is then recorded, the thirteenth and later ones in the overflow sum and count (R61). Before it, in stage 5, both
lists are relabelled to roots and every MERGED entry is released in ascending order (R59). In stage 6 each OPEN gap root that was not
touched closes, in the order of its leftmost gap on the previous line (R60); in stage 7 each OPEN leather root that was not touched
becomes CLOSED_WAIT, its ring discarded (R63). -/
def Obligations.HoleTestAndRecording : Prop :=
  (∀ k : Rtk, k.table.length = 64 →
    let t := k.stage5
    let relabelled := fun l : List Span => l.map fun x => { x with
      label := match x.label with | .untracked => .untracked | .entry i => .entry (k.root i) }
    t = { k with
      table := t.table
      stack := ((List.range 64).filter fun i => (k.region i).state = .merged).reverse ++ k.stack
      prev := ⟨relabelled k.prev.runs, relabelled k.prev.gaps⟩
      cur := ⟨relabelled k.cur.runs, relabelled k.cur.gaps⟩ } ∧
      ∀ i < 64, t.region i =
        if (k.region i).state = .merged then Region.cleared (k.region i).kind i else k.region i) ∧
  (∀ (now : Word32) (k : Rtk), ∃ closing : List Nat,
    k.stage6 now = closing.foldl (Rtk.closeGap now) k ∧ closing.Nodup ∧
      (∀ i, i ∈ closing ↔ (k.region i).kind = .gap ∧ (k.region i).state = .opened ∧ (k.region i).touched = false ∧
        ∃ g ∈ k.prev.gaps, g.label = .entry i) ∧
      closing.Pairwise fun i j => ∃ front g back, k.prev.gaps = front ++ g :: back ∧ g.label = .entry i ∧
        ∀ x ∈ front, x.label ≠ .entry j) ∧
  (∀ (truncated : Bool) (k : Rtk), k.stage7 truncated = { k with table := (k.stage7 truncated).table } ∧
    (k.stage7 truncated).table.length = k.table.length ∧
    ∀ i < k.table.length,
      let r := k.region i
      (k.stage7 truncated).region i =
        if r.kind = .leather ∧ r.state = .opened ∧ r.touched = false then
          { r with
            state := .closedWait
            ring := []
            flags := { r.flags with
              exhausted := r.flags.exhausted || r.epoch != k.exhaustion
              truncated := r.flags.truncated || truncated } }
        else r) ∧
  (∀ (k : Rtk) (i root : Nat),
    (∀ r ∈ k.prev.runs, r.first ≤ r.last) → k.prev.runs.Pairwise (fun r q => r.last + 1 < q.first) →
    (∀ r ∈ k.cur.runs, r.first ≤ r.last) → k.cur.runs.Pairwise (fun r q => r.last + 1 < q.first) →
    (∀ g ∈ k.prev.gaps, g.first ≤ g.last) →
    (k.holeRoot i = some root ↔
      (k.region i).openTop = false ∧ (∃ g ∈ k.prev.gaps, g.label = .entry i) ∧
        ∀ g ∈ k.prev.gaps, g.label = .entry i →
          (∃ a ∈ k.prev.runs, a.last + 1 = g.first ∧ a.label = .entry root) ∧
          (∃ b ∈ k.prev.runs, b.first = g.last + 1 ∧ b.label = .entry root) ∧
          ∃ c ∈ k.cur.runs, c.first ≤ g.first ∧ g.last ≤ c.last ∧ c.label = .entry root)) ∧
  ∀ (now : Word32) (k : Rtk) (i : Nat), i < k.table.length →
    let t := k.closeGap now i
    let gap := k.region i
    t.stack = i :: k.stack ∧ t.region i = Region.cleared gap.kind i ∧
      (k.holeRoot i = none → ∀ j, j ≠ i → t.region j = k.region j) ∧
      ∀ root, k.holeRoot i = some root → root ≠ i → root < k.table.length →
        let r := k.region root
        (∀ j, j ≠ i → j ≠ root → t.region j = k.region j) ∧
        (r.holes.length < 12 →
          t.region root = { r with
            holes := r.holes ++ [⟨gap.area, now⟩]
            flags := { r.flags with exhausted := r.flags.exhausted || gap.epoch != k.exhaustion } }) ∧
        (12 ≤ r.holes.length →
          t.region root = { r with
            holeOverSum := min (r.holeOverSum + gap.area) (2 ^ 64 - 1)
            holeOverCount := min (r.holeOverCount + 1) 65535
            flags := { r.flags with
              exhausted := r.flags.exhausted || gap.epoch != k.exhaustion
              holeOverflow := true
              overrange := r.flags.overrange || decide (2 ^ 64 - 1 < r.holeOverSum + gap.area) } })

/-- A run that joins no root of the previous line takes the entry on top of the stack, or is UNTRACKED with the exhaustion
count raised when there is none (R44, R45, R50); roots that one run joins merge into the survivor, which has the earliest
first line, then the lowest index, and to which a loser's label resolves from then on; it takes the areas, extents, flags, the
earlier open epoch and the greater interpolated lines of its losers, absorbed in that order (R49, R52, R58), the first 12 holes of
both lists in order of closure, its own first on one line, and the rest as overflow (R53), and of each line the wider ring entry, and
the wider anchor, its own when equal (R54). A span adds its area, last
line and extent to its root (R55, R58), and the root's widest run enters its ring, from which the oldest entry leaves when it
holds S already and becomes the anchor by the three tests (R56). A run joins the roots of the runs that it overlaps on the previous
line, a gap those of the gaps; a gap's top is open unless one run covers it (R49, R57). A run at cell 0 or 1599 marks its root EDGE
(R55), and a fill raises the interpolated lines of each root that its runs touch (R48). -/
def Obligations.RunsOpenContinueMergeAndAccumulate : Prop :=
  (∀ (diagJoin : Bool) (spans : List Span) (first last : Nat) (k : Rtk),
    (k.rootsOver diagJoin spans first last).Nodup ∧
    ∀ i, i ∈ k.rootsOver diagJoin spans first last ↔ ∃ x ∈ spans, ∃ j, x.label = .entry j ∧ k.root j = i ∧
      ((first ≤ x.last ∧ x.first ≤ last) ∨ (diagJoin = true ∧ (x.last + 1 = first ∨ last + 1 = x.first)))) ∧
  (∀ (c : LineContext) (k : Rtk) (r : Run),
    (let j := k.joinSpan c .leather (k.rootsOver c.diagJoin k.prev.runs r.first r.last) r.first r.last false
    k.matchRun c r =
      { j.1 with cur := { j.1.cur with runs := j.1.cur.runs ++ [⟨r.first, r.last, r.width, j.2⟩] } }) ∧
    let j := k.joinSpan c .gap (k.rootsOver c.diagJoin k.prev.gaps r.first r.last) r.first r.last
      (decide (¬ ∃ x ∈ k.prev.runs, x.first ≤ r.first ∧ r.last ≤ x.last))
    k.matchGap c r =
      { j.1 with cur := { j.1.cur with gaps := j.1.cur.gaps ++ [⟨r.first, r.last, r.width, j.2⟩] } }) ∧
  (∀ (sums : List Nat) (runs : List Span), gapsOf sums runs = (runs.zip runs.tail).map fun x =>
    ⟨x.1.last + 1, x.2.first - 1, sums.getD (x.2.first - 1 + 1) 0 - sums.getD (x.1.last + 1) 0⟩) ∧
  (∀ (k : Rtk) (s : Span) (i : Nat), s.label = .entry i → k.root i < k.table.length →
    let r := k.region (k.root i)
    (s.first = 0 ∨ s.last = 1599 →
      k.markEdge s = k.setRegion (k.root i) { r with flags := { r.flags with edge := true } }) ∧
    (s.first ≠ 0 → s.last ≠ 1599 → k.markEdge s = k)) ∧
  (∀ k : Rtk, k.touchedRoots.Nodup ∧
    (∀ i, i ∈ k.touchedRoots ↔ ∃ x ∈ k.cur.runs, ∃ j, x.label = .entry j ∧ k.root j = i) ∧
    (∀ i, let r := k.region i
      k.countFill i = k.setRegion i { r with interpolated := min (r.interpolated + 1) 65535 }) ∧
    ∀ (root : Nat) (s : Span), k.widestRun root = some s →
      let named := fun x : Span => ∃ j, x.label = .entry j ∧ k.root j = root
      ∃ front back, k.cur.runs = front ++ s :: back ∧ named s ∧ (∀ x ∈ front, named x → x.width < s.width) ∧
        ∀ x ∈ back, named x → x.width ≤ s.width) ∧
  (∀ (c : LineContext) (kind : RegionKind) (first last : Nat) (openTop : Bool) (k : Rtk),
    (∀ i rest, k.stack = i :: rest → i < k.table.length →
      k.joinSpan c kind [] first last openTop =
        ({ k with stack := rest, table := k.table.set i { Region.cleared kind i with
          state := .opened, firstLine := c.line, lastLine := c.line, minCell := first, maxCell := last, born := c.pos,
          epoch := k.exhaustion, touched := true, openTop := openTop } }, .entry i)) ∧
    (k.stack = [] →
      k.joinSpan c kind [] first last openTop = ({ k with exhaustion := k.exhaustion + 1 }, .untracked))) ∧
  (∀ (c : LineContext) (kind : RegionKind) (first last : Nat) (openTop : Bool) (k : Rtk) (roots : List Nat),
    roots ≠ [] → roots.Nodup →
    ∃ survivor ∈ roots, (k.joinSpan c kind roots first last openTop).2 = .entry survivor ∧
      (let before := fun i j : Nat =>
        behind c.line (k.region j).firstLine < behind c.line (k.region i).firstLine ∨
          ((k.region i).firstLine = (k.region j).firstLine ∧ i < j)
      ∃ losers : List Nat, (survivor :: losers).Perm roots ∧ (survivor :: losers).Pairwise before ∧
        (k.joinSpan c kind roots first last openTop).1 =
          (let m := losers.foldl (Rtk.mergeInto c survivor) k
          m.setRegion survivor { m.region survivor with touched := true }))) ∧
  (∀ (c : LineContext) (k : Rtk) (i j : Nat), i ≠ j → i < k.table.length → j < k.table.length →
    (k.region i).parent = i →
    let m := k.mergeInto c i j
    m.root j = i ∧ m.root i = i ∧ (m.region j).state = .merged ∧ (m.region i).state = (k.region i).state ∧
      (m.region i).area = min ((k.region i).area + (k.region j).area) (2 ^ 64 - 1) ∧
      (m.region i).minCell = min (k.region i).minCell (k.region j).minCell ∧
      (m.region i).maxCell = max (k.region i).maxCell (k.region j).maxCell ∧
      (∀ n, n ≠ i → n ≠ j → m.region n = k.region n) ∧ m.stack = k.stack ∧
      (let a := k.region i
      let b := k.region j
      let r := m.region i
      r.kind = a.kind ∧ r.firstLine = a.firstLine ∧ r.lastLine = a.lastLine ∧ r.born = a.born ∧ r.touched = a.touched ∧
        r.epoch = (if behind k.exhaustion a.epoch < behind k.exhaustion b.epoch then b.epoch else a.epoch) ∧
        r.interpolated = max a.interpolated b.interpolated ∧ r.openTop = (a.openTop || b.openTop) ∧
        r.flags.exhausted = (a.flags.exhausted || b.flags.exhausted) ∧ r.flags.edge = (a.flags.edge || b.flags.edge) ∧
        r.flags.truncated = (a.flags.truncated || b.flags.truncated) ∧
        (∃ all : List Hole, all.Perm (a.holes ++ b.holes) ∧ a.holes.Sublist all ∧
          (a.holes.Pairwise (fun x y => behind c.line y.line ≤ behind c.line x.line) →
            b.holes.Pairwise (fun x y => behind c.line y.line ≤ behind c.line x.line) →
            all = a.holes.merge b.holes fun x y => decide (behind c.line y.line ≤ behind c.line x.line)) ∧
          r.holes = all.take 12 ∧
          (let excess := a.holeOverSum + b.holeOverSum + ((all.drop 12).map Hole.area).sum
          let count := a.holeOverCount + b.holeOverCount + (all.length - 12)
          r.holeOverSum = min excess (2 ^ 64 - 1) ∧ r.holeOverCount = min count 65535 ∧
            r.flags.holeOverflow = (a.flags.holeOverflow || b.flags.holeOverflow || decide (0 < count)) ∧
            r.flags.overrange = (a.flags.overrange || b.flags.overrange || decide (2 ^ 64 - 1 < a.area + b.area) ||
              decide (2 ^ 64 - 1 < excess)))) ∧
        (let rises := fun l : List Anchor => l.Pairwise fun x y => behind c.line y.line < behind c.line x.line
        rises a.ring → rises b.ring → rises r.ring ∧ ∀ x, x ∈ r.ring ↔
          (x ∈ a.ring ∧ ∀ y ∈ b.ring, y.line = x.line → y.width ≤ x.width) ∨
            (x ∈ b.ring ∧ ∀ y ∈ a.ring, y.line = x.line → y.width < x.width)) ∧
        (b.anchor = none → r.anchor = a.anchor) ∧ (a.anchor = none → r.anchor = b.anchor) ∧
        ∀ x y, a.anchor = some x → b.anchor = some y → r.anchor = if x.width < y.width then some y else some x)) ∧
  (∀ (c : LineContext) (k : Rtk) (s : Span) (i : Nat), s.label = .entry i → k.root i < k.table.length →
    let r := k.region (k.root i)
    (k.accumulate c s).region (k.root i) =
      { r with
        area := min (r.area + s.width * c.pitch) (2 ^ 64 - 1)
        lastLine := c.line
        minCell := min r.minCell s.first
        maxCell := max r.maxCell s.last
        flags := { r.flags with
          overrange := r.flags.overrange || decide (2 ^ 64 - 1 < r.area + s.width * c.pitch) } }) ∧
  ∀ (c : LineContext) (k : Rtk) (root : Nat) (s : Span), root < k.table.length → k.widestRun root = some s →
    let r := k.region root
    let newest : Anchor := ⟨c.line, s.width, (s.first + s.last) / 2, c.pos⟩
    (r.ring.length < c.setback → (k.pushAnchor c root).region root = { r with ring := r.ring ++ [newest] }) ∧
    ∀ (a : Anchor) (rest : List Anchor), r.ring = a :: rest → r.ring.length = c.setback →
      let taken := (∀ b, r.anchor = some b → b.width < a.width) ∧ c.minAnchor ≤ a.width ∧
        behind c.line a.line + c.setback ≤ behind c.line r.firstLine
      (taken → (k.pushAnchor c root).region root = { r with ring := rest ++ [newest], anchor := some a }) ∧
      (¬ taken → (k.pushAnchor c root).region root = { r with ring := rest ++ [newest] })

/-! ### The hide evaluator -/

/-- An offer is scrapped below the minimum hide area, refused with STORE_FULL when no slot is empty, and otherwise taken:
its record goes into the lowest empty slot with the next hide number, as the stamp decision leaves it; a hide that is not SUSPECT
is fed to the pack slot its class names; and the record then asks for a report place (R75 to R77, R85 to R90). -/
def Obligations.EvaluationScrapsRefusesOrTakes : Prop :=
  ∀ (d : Device) (t : Terms) (o : Region), d.hev.terms = some t →
    (o.area < t.minHide * t.stepFau →
      d.evaluate o = (.scrap, { d with hev := { d.hev with scraps := sat16 d.hev.scraps 1 } })) ∧
    (t.minHide * t.stepFau ≤ o.area → (∀ r ∈ d.hev.store, r ≠ none) → d.evaluate o = (.refuse, d.raise .storeFull)) ∧
    ∀ i : Nat, t.minHide * t.stepFau ≤ o.area → d.hev.store[i]? = some none →
      (∀ j < i, ∃ r, d.hev.store[j]? = some (some r)) →
      ∃ (v : Device) (r : HideRecord),
        d.evaluate o = (.take, v.askHidePlace i) ∧ Touches [.hev, .sth, .pku, .lnk, .dec] d v ∧
          r = { d.makeRecord t o with assigned := r.assigned, disposition := r.disposition } ∧
          v.hev = { d.hev with nextHide := d.hev.nextHide + 1, store := d.hev.store.set i (some r) } ∧
          (let e := d.stampDecision t i (d.makeRecord t o)
          e.hev.store = v.hev.store ∧ v.sth = e.sth) ∧
          (∀ k c n, r.classIndex = some k → t.classes[k]? = some c → c.pack = some n → r.flags.suspect = false →
            let e := d.feedPack n ⟨r.steps, r.counted, r.unit, r.resolution, r.generation, c.target⟩
            v.pku = e.pku ∧ v.lnk = e.lnk) ∧
          ((r.flags.suspect = true ∨ ∀ k c, r.classIndex = some k → t.classes[k]? = some c → c.pack = none) →
            v.pku = d.pku ∧ v.lnk = d.lnk)

/-- A record's counted area is its measured area plus its filled-hole area, and never more than 2^64 - 1 (R80). Its class index is
the lowest class whose band holds the steps, or NONE (R82); its flags are the offer's, with INTERPOLATED above the limit and
NO_ANCHOR without an anchor (R83); SUSPECT is their OR but for two (R84). A hole of at most the small-hole limit is small and fills, a
greater one is large and deducts, and so do the holes beyond the twelfth; sums and counts saturate, a sum with OVERRANGE, which the
record carries with the offer's own (R78, R79, R83). -/
def Obligations.RecordCarriesCountedAreaClassAndFlags : Prop :=
  (∀ (d : Device) (t : Terms) (o : Region), o.area ≤ 2 ^ 64 - 1 →
    let r := d.makeRecord t o
    let sum := o.area + (o.holeTally t.smallHole).filled
    r.measured = o.area ∧ r.counted = r.measured + r.filled ∧ r.counted = min sum (2 ^ 64 - 1) ∧
      (sum ≤ 2 ^ 64 - 1 → r.filled = (o.holeTally t.smallHole).filled) ∧
      (2 ^ 64 - 1 < sum → r.filled = r.counted - r.measured ∧ r.filled < (o.holeTally t.smallHole).filled ∧
        r.flags.overrange = true ∧ r.flags.suspect = true) ∧
      r.deducted = (o.holeTally t.smallHole).deducted ∧ r.smallHoles = (o.holeTally t.smallHole).small ∧
      r.largeHoles = (o.holeTally t.smallHole).large ∧
      (r.flags.overrange = true ↔
        o.flags.overrange = true ∨ (o.holeTally t.smallHole).overrange = true ∨ 2 ^ 64 - 1 < sum)) ∧
  (∀ (o : Region) (limit : Nat),
    let t := o.holeTally limit
    let small := o.holes.filter fun h => h.area ≤ limit * 65536000000
    let large := o.holes.filter fun h => limit * 65536000000 < h.area
    let fill := (small.map Hole.area).sum
    let deduct := (large.map Hole.area).sum + o.holeOverSum
    t.filled = min fill (2 ^ 64 - 1) ∧ t.deducted = min deduct (2 ^ 64 - 1) ∧ t.small = min small.length 65535 ∧
      t.large = min (large.length + o.holeOverCount) 65535 ∧
      (t.overrange = true ↔ 2 ^ 64 - 1 < fill ∨ 2 ^ 64 - 1 < deduct)) ∧
  (∀ (d : Device) (t : Terms) (o : Region),
    let r := d.makeRecord t o
    r.steps = roundSteps t.rounding r.counted t.stepFau ∧
      (∀ k, r.classIndex = some k ↔
        (∃ c, t.classes[k]? = some c ∧ c.low ≤ r.steps ∧ r.steps ≤ c.high) ∧
          ∀ j < k, ∀ c, t.classes[j]? = some c → ¬ (c.low ≤ r.steps ∧ r.steps ≤ c.high)) ∧
      r.flags.exhausted = o.flags.exhausted ∧ r.flags.edge = o.flags.edge ∧ r.flags.truncated = o.flags.truncated ∧
      r.flags.holeOverflow = o.flags.holeOverflow ∧ (r.flags.interpolated = true ↔ t.interpolation < o.interpolated) ∧
      (r.flags.noAnchor = true ↔ o.anchor = none) ∧
      (r.flags.suspect = true ↔ (r.flags.exhausted = true ∨ r.flags.edge = true ∨ r.flags.interpolated = true ∨
        r.flags.truncated = true ∨ r.flags.overrange = true)) ∧
      r.number = d.hev.nextHide ∧ r.generation = d.hev.generation ∧ r.audit = d.ccu.audit ∧ r.uptime = d.bpu.uptime ∧
      r.disposition = .pending ∧ r.assigned = none)

/-- The rounded steps of a counted area, by the rounding mode; at most 302,978 for every legal unit and resolution, and at most
302,977 as a quotient; a record's steps are rounded once, from its whole counted area (R81). -/
def Obligations.RoundedStepsFollowTheRoundingMode : Prop :=
  (∀ a f : Nat, 0 < f →
    roundSteps .down a f * f ≤ a ∧ a < (roundSteps .down a f + 1) * f ∧
      2 * (roundSteps .nearest a f * f) ≤ 2 * a + f ∧ 2 * a + f < 2 * ((roundSteps .nearest a f + 1) * f) ∧
      a ≤ roundSteps .up a f * f ∧ roundSteps .up a f * f < a + f) ∧
  (∀ (u : SaleUnit) (r : Resolution) (m : Rounding) (a f : Nat), fauPerStep u r = some f → a ≤ 2 ^ 64 - 1 →
    a / f ≤ 302977 ∧ roundSteps m a f ≤ 302978) ∧
  ∀ (d : Device) (t : Terms) (o : Region),
    let r := d.makeRecord t o
    r.steps = roundSteps t.rounding r.counted t.stepFau

/-- Stage 9: the policy and the anchor decide first, then the heads whose zone holds the anchor, then admission; a hide refused
anywhere gets the disposition named and enters no queue (R85 to R87); the tests of an admission come in their order (R116). An
admitted entry stands behind the leading entries that are not ahead of it and before the rest, and an IDLE head, the line not
FAULTED, then sets its front entry (R117); a queue whose fire positions rise goes on rising, where they lie within 2^47 pulses, over
which modular comparison orders them (R115). -/
def Obligations.StampDecisionAndAdmissionTestsComeInOrder : Prop :=
  (∀ (t : Terms) (i : Nat) (r : HideRecord) (d : Device),
    (r.flags.suspect = true → t.suspect = .skip →
      d.stampDecision t i r = d.setRecord i (some { r with disposition := .skippedPolicy })) ∧
    (r.flags.suspect = false ∨ t.suspect ≠ .skip →
      (r.anchor = none → d.stampDecision t i r = d.setRecord i (some { r with disposition := .skippedNoAnchor })) ∧
      ∀ a : Anchor, r.anchor = some a →
        let candidate := fun n : Fin 4 =>
          (d.headEntry n).enable = true ∧ (d.headEntry n).zoneFirst ≤ a.cell ∧ a.cell ≤ (d.headEntry n).zoneLast
        ((∀ n, ¬ candidate n) →
          d.stampDecision t i r = d.setRecord i (some { r with disposition := .skippedNoHead })) ∧
        ((∃ n, candidate n) → (∀ n, candidate n → (d.head n).state = .disabled) →
          d.stampDecision t i r = d.setRecord i (some { r with disposition := .skippedHeadOff })) ∧
        ∀ n, candidate n → (d.head n).state ≠ .disabled →
          (∀ m < n, candidate m → (d.head m).state = .disabled) →
          let fire := a.pos + BitVec.ofNat 48 (d.headEntry n).offset
          (∀ answer, admissionRefusal d.bpu.position (d.headEntry n) (d.head n) fire = some answer →
            d.stampDecision t i r =
              d.setRecord i (some { r with assigned := some (n, fire), disposition := answer })) ∧
          (admissionRefusal d.bpu.position (d.headEntry n) (d.head n) fire = none →
            let star := r.flags.suspect && t.suspect == .stars
            ∃ e : StampEntry, e.hide = r.number ∧ e.slot = i ∧ e.fire = fire ∧
              (r.classIndex = none → e.wheels = wheelTarget 0 r.steps r.resolution star ∧ e.force = 15) ∧
              (∀ k c, r.classIndex = some k → t.classes[k]? = some c →
                e.wheels = wheelTarget c.face r.steps r.resolution star ∧ e.force = c.force) ∧
              d.stampDecision t i r = (d.setRecord i (some { r with assigned := some (n, fire) })).admitEntry n e))) ∧
  (∀ (position : Position) (t : HeadEntry) (h : Head) (fire : Position),
    let late := posDiff fire position < t.leadMargin ∨ posDiff fire position ≤ 0
    let committed := (h.state = .setting ∨ h.state = .ready ∨ h.state = .striking) ∧
      ∃ e rest, h.queue = e :: rest ∧ posDiff fire e.fire ≤ 0
    let near := (∃ e, (splitQueue fire h.queue).1.getLast? = some e ∧ posDiff fire e.fire < t.spacing) ∨
      ∃ e, (splitQueue fire h.queue).2.head? = some e ∧ posDiff e.fire fire < t.spacing
    (splitQueue fire h.queue).1 ++ (splitQueue fire h.queue).2 = h.queue ∧
      (late → admissionRefusal position t h fire = some .skippedTooLate) ∧
      (¬ late → committed → admissionRefusal position t h fire = some .skippedOrder) ∧
      (¬ late → ¬ committed → near ∨ 8 ≤ h.queue.length → admissionRefusal position t h fire = some .skippedCrowded) ∧
      (¬ late → ¬ committed → ¬ near → h.queue.length < 8 → admissionRefusal position t h fire = none)) ∧
  (∀ (fire : Position) (q : List StampEntry),
    (∀ e ∈ (splitQueue fire q).1, posDiff e.fire fire ≤ 0) ∧
      ∀ e, (splitQueue fire q).2.head? = some e → 0 < posDiff e.fire fire) ∧
  (∀ (n : Fin 4) (e : StampEntry) (d : Device), d.sth.heads.length = 4 →
    let h := d.head n
    let q := (splitQueue e.fire h.queue).1 ++ e :: (splitQueue e.fire h.queue).2
    (h.state ≠ .idle ∨ d.lct.lineState = .faulted → d.admitEntry n e = d.setHead n { h with queue := q }) ∧
    (h.state = .idle → d.lct.lineState ≠ .faulted → ∃ f rest, q = f :: rest ∧
      d.admitEntry n e = d.setHead n { h with
        queue := q, state := .setting, retryUsed := false, lastShift := some f.shiftWord
        timer := Timer.start (d.headEntry n).setTime false })) ∧
  ∀ (position : Position) (t : HeadEntry) (h : Head) (e : StampEntry),
    admissionRefusal position t h e.fire = none → 1 ≤ t.spacing → queueRises h.queue →
    let q := (splitQueue e.fire h.queue).1 ++ e :: (splitQueue e.fire h.queue).2
    queueWithinHalf q → queueRises q

/-- A PENDING record that its head decides becomes FINAL with that disposition: with a report place free its HIDE frame is placed,
its slot is emptied and the tracker told; without one it waits in its slot (R89, R90, R92, R138). The entry decided leaves its
queue (R138); a head left IDLE with work, the line not FAULTED, starts setting its front entry's shift word for the set time
(R122). The fields of the HIDE frame in their places, with 255 for an absent index and 0 for an absent position or anchor (R206,
R208). -/
def Obligations.DecidedOutcomeLeavesQueueAndReportsRecord : Prop :=
  (∀ (d : Device) (i : Nat) (r : HideRecord) (outcome : Disposition), d.record i = some r → outcome ≠ .pending →
    (d.reportRoom = true →
      let t := d.dispose i outcome
      t.hev = { d.hev with store := d.hev.store.set i none } ∧ t.rtk = { d.rtk with retryPending := true } ∧
        t.lnk = (d.placeReport (hideFrame i { r with disposition := outcome })).lnk ∧
        Touches [.hev, .rtk, .lnk, .dec] d t) ∧
    (d.reportRoom = false → d.dispose i outcome = d.setRecord i (some { r with disposition := outcome }))) ∧
  ((∀ (n : Fin 4) (e : StampEntry) (outcome : Disposition) (d : Device), d.sth.heads.length = 4 →
    (d.decideEntry n e outcome).sth =
        (d.setHead n { d.head n with queue := (d.head n).queue.filter fun x => x.fire != e.fire }).sth ∧
      (d.decideEntry n e outcome).hev = (d.dispose e.slot outcome).hev ∧
      (d.decideEntry n e outcome).lnk = (d.dispose e.slot outcome).lnk ∧
      Touches [.sth, .hev, .rtk, .lnk, .dec] d (d.decideEntry n e outcome)) ∧
  ∀ (n : Fin 4) (atTick : Bool) (d : Device),
    (∀ e rest, (d.head n).queue = e :: rest → (d.head n).state = .idle → d.lct.lineState ≠ .faulted →
      d.startSetting n atTick = d.setHead n { d.head n with
        state := .setting, retryUsed := false, lastShift := some e.shiftWord
        timer := Timer.start (d.headEntry n).setTime atTick }) ∧
    ((d.head n).queue = [] ∨ (d.head n).state ≠ .idle ∨ d.lct.lineState = .faulted → d.startSetting n atTick = d)) ∧
  ∀ (i : Nat) (r : HideRecord),
    let f := hideFrame i r
    let b := f.payload
    f.kind = 0x20 ∧ f.addr = 1 ∧ b = r.bytes i ∧ b.length = 104 ∧
      Shows b [(0, 4, r.number.toNat), (4, 1, i), (5, 1, r.disposition.code.toNat), (8, 4, r.firstLine.toNat),
        (12, 4, r.lastLine.toNat), (16, 2, r.minCell), (18, 2, r.maxCell), (20, 6, r.born.toNat), (26, 8, r.measured),
        (34, 8, r.filled), (42, 8, r.deducted), (50, 8, r.counted), (58, 2, r.smallHoles), (60, 2, r.largeHoles),
        (62, 4, r.steps), (66, 1, r.unit.code.toNat), (67, 1, r.resolution.code.toNat), (68, 4, r.generation.toNat),
        (72, 1, r.classIndex.getD 255), (96, 4, r.audit), (100, 4, r.uptime.toNat)] ∧
      fieldAt 6 2 b < 256 ∧
      (∀ x ∈ [(0, r.flags.exhausted), (1, r.flags.edge), (2, r.flags.interpolated), (3, r.flags.truncated),
        (4, r.flags.holeOverflow), (5, r.flags.overrange), (6, r.flags.noAnchor),
        (7, r.flags.exhausted || r.flags.edge || r.flags.interpolated || r.flags.truncated || r.flags.overrange)],
        (fieldAt 6 2 b).testBit x.1 = x.2) ∧
      (∀ n fire, r.assigned = some (n, fire) → Shows b [(73, 1, n.val), (74, 6, fire.toNat)]) ∧
      (r.assigned = none → Shows b [(73, 1, 255), (74, 6, 0)]) ∧
      (∀ a, r.anchor = some a → Shows b [(80, 4, a.line.toNat), (84, 4, a.width), (88, 2, a.cell), (90, 6, a.pos.toNat)]) ∧
      (r.anchor = none → Shows b [(80, 4, 0), (84, 4, 0), (88, 2, 0), (90, 6, 0)])

/-! ### The stamp heads -/

/-- The wheels show the footage: blanks read as 0, the digit wheels spell the steps; the integer wheels left of the first non-zero
digit are blank, but for the rightmost, and so is the quarter wheel of a whole number; and a marked hide or one beyond the
capacity shows stars (R118 to R120); the shift word carries face, digits, force and check in their places (R121, R211). -/
def Obligations.WheelsAndShiftWordCarryTheStamp : Prop :=
  (∀ (face steps : Nat) (r : Resolution), face ≤ 15 → steps ≤ r.capacity →
    let w := wheelTarget face steps r false
    let digit := fun c : BitVec 4 => if c = 10 then 0 else c.toNat
    w.face.toNat = face ∧
      steps = (match r with
        | .whole => 10000 * digit w.d1 + 1000 * digit w.d2 + 100 * digit w.d3 + 10 * digit w.d4 + digit w.d5
        | .quarter => 4 * (1000 * digit w.d1 + 100 * digit w.d2 + 10 * digit w.d3 + digit w.d4) + (w.d5.toNat - 11)
        | .tenth => 10 * (100 * digit w.d1 + 10 * digit w.d2 + digit w.d3) + w.d5.toNat
        | .hundredth => 100 * (10 * digit w.d1 + digit w.d2) + 10 * w.d4.toNat + w.d5.toNat) ∧
      (r = .tenth → w.d4 = 15) ∧ (r = .hundredth → w.d3 = 15) ∧
      (let shows := fun (c : BitVec 4) (whole place : Nat) =>
        c.toNat = if 1 < place ∧ whole < place then 10 else whole / place % 10
      match r with
      | .whole => shows w.d1 steps 10000 ∧ shows w.d2 steps 1000 ∧ shows w.d3 steps 100 ∧ shows w.d4 steps 10 ∧ shows w.d5 steps 1
      | .quarter => shows w.d1 (steps / 4) 1000 ∧ shows w.d2 (steps / 4) 100 ∧ shows w.d3 (steps / 4) 10 ∧
        shows w.d4 (steps / 4) 1 ∧ w.d5.toNat = if steps % 4 = 0 then 10 else 11 + steps % 4
      | .tenth => shows w.d1 (steps / 10) 100 ∧ shows w.d2 (steps / 10) 10 ∧ shows w.d3 (steps / 10) 1 ∧ w.d5.toNat = steps % 10
      | .hundredth => shows w.d1 (steps / 100) 10 ∧ shows w.d2 (steps / 100) 1 ∧ w.d4.toNat = steps / 10 % 10 ∧
        w.d5.toNat = steps % 10)) ∧
  (∀ (face steps : Nat) (r : Resolution) (star : Bool), star = true ∨ r.capacity < steps →
    wheelTarget face steps r star = ⟨BitVec.ofNat 4 face, 11, 11, 11, 11, 11⟩) ∧
  ∀ e : StampEntry,
    e.shiftWord.extractLsb' 28 4 = e.wheels.face ∧ e.shiftWord.extractLsb' 24 4 = e.wheels.d1 ∧
      e.shiftWord.extractLsb' 20 4 = e.wheels.d2 ∧ e.shiftWord.extractLsb' 16 4 = e.wheels.d3 ∧
      e.shiftWord.extractLsb' 12 4 = e.wheels.d4 ∧ e.shiftWord.extractLsb' 8 4 = e.wheels.d5 ∧
      e.shiftWord.extractLsb' 4 4 = BitVec.ofNat 4 e.force ∧ e.shiftWord.extractLsb' 0 4 = e.hide.extractLsb' 0 4

/-- SET_TIME_EXPIRY of a SETTING head: the readback is kept and INK_LOW raises its latch; JAM, or a mismatch after the
retry, stalls the head with VERIFY_FAIL; a match makes it READY; a first mismatch sets again (R123 to R125). Of another
head, or before the set time is up, nothing happens (log 12). That the word of zeros shifted out is not kept as the last shift word
is the model's choice (log 36). -/
def Obligations.SetTimeExpiryJudgesTheReadback : Prop :=
  ∀ (n : Fin 4) (w : Word32) (s : State), s.dev.InService → s.dev.sth.heads.length = 4 →
    let h := s.dev.head n
    let d := s.dev.setHead n { h with lastReadback := some w }
    let d := if w.getLsbD 2 then d.raise (.inkLow n) else d
    (h.state ≠ .setting ∨ h.timer.due = false →
      exec (.setTimeExpiry n w) s = .next ⟨s.dev.askEventPlace, s.pending⟩) ∧
    ∀ e rest, h.state = .setting → h.timer.due = true → h.queue = e :: rest →
      let matching := w.extractLsb' 8 24 = e.wheels.word ∧ w.extractLsb' 4 4 = e.hide.extractLsb' 0 4 ∧
        w.getLsbD 1 = true ∧ w.getLsbD 0 = false
      (w.getLsbD 3 = true ∨ (¬ matching ∧ h.retryUsed = true) →
        exec (.setTimeExpiry n w) s =
          .next ⟨(Device.decideEntry n e .verifyFail ((d.setHead n { h with
            lastReadback := some w, state := .stalled, timer := none, retryUsed := false }).raise
              (.headStall n))).askEventPlace, s.pending⟩) ∧
      (w.getLsbD 3 = false → matching →
        exec (.setTimeExpiry n w) s =
          .next ⟨(d.setHead n { h with lastReadback := some w, state := .ready, timer := none }).askEventPlace,
            s.pending⟩) ∧
      (w.getLsbD 3 = false → ¬ matching → h.retryUsed = false →
        exec (.setTimeExpiry n w) s =
          .next ⟨(d.setHead n { h with
            lastReadback := some w, retryUsed := true, lastShift := some e.shiftWord
            timer := Timer.start (s.dev.headEntry n).setTime true }).askEventPlace, s.pending⟩)

/-- What a forward pulse onto a fire position does, by the head's state (R127, R128, R131, R132): READY strikes its front
entry; STRIKING lets it pass; STALLED misses it as MISSED_STALLED; any other entry is MISSED_LATE, and an abandoned setting
begins anew. The pulse presents its new position to the heads, and each that has an entry there crosses it, in a free order (log 6);
with none there nothing happens. A REVERSE pulse crosses nothing. -/
def Obligations.CrossingStrikesOrMisses : Prop :=
  (∀ d : Device, d.presentPosition .reverse = d) ∧
  (∀ d : Device, ∃ e : Device, d.pulse .forward = e.presentPosition .forward ∧ e.bpu.position = d.bpu.position + 1 ∧
    e.sth = d.sth) ∧
  (∀ (n : Fin 4) (d : Device), d.crossedEntry n = none ↔ ∀ e ∈ (d.head n).queue, e.fire ≠ d.bpu.position) ∧
  (∀ d : Device,
    let crossed := ([0, 1, 2, 3] : List (Fin 4)).filter fun n => (d.crossedEntry n).isSome
    (crossed = [] → d.presentPosition .forward = d) ∧
    (crossed ≠ [] → ∃ order : List (Fin 4), order.Perm crossed ∧
      d.presentPosition .forward = { order.foldl (fun e n => e.cross n) d with draws := d.draws + 1 })) ∧
  ∀ (n : Fin 4) (d : Device) (e : StampEntry), d.sth.heads.length = 4 → d.crossedEntry n = some e →
    let h := d.head n
    let front := ∃ f rest, h.queue = f :: rest ∧ f.fire = e.fire
    e ∈ h.queue ∧ e.fire = d.bpu.position ∧
      (h.state = .ready → front →
        d.cross n = d.setHead n { h with
          state := .striking, strikeHigh := true, timer := Timer.start (d.headEntry n).strikeTime false }) ∧
      (h.state = .striking → front → d.cross n = d) ∧
      (h.state = .stalled → d.cross n = d.decideEntry n e .missedStalled) ∧
      (h.state = .setting → front →
        d.cross n = (Device.decideEntry n e .missedLate
          (d.setHead n { h with state := .idle, timer := none, retryUsed := false })).startSetting n false) ∧
      (h.state ≠ .stalled → (h.state = .idle ∨ h.state = .recovering ∨ h.state = .disabled ∨ ¬ front) →
        d.cross n = (d.decideEntry n e .missedLate).startSetting n false)

/-- STRIKE_TIME_EXPIRY: the line goes low, the front entry is STAMPED, and the head is disabled when that is pending, or
recovers; a recover time of 0 ms ends at once. RECOVER_TIME_EXPIRY: the head is IDLE and sets its next entry (R129, R130). -/
def Obligations.StrikeAndRecoverTimesEnd : Prop :=
  ∀ (n : Fin 4) (s : State), s.dev.InService → s.dev.sth.heads.length = 4 →
    let h := s.dev.head n
    (∀ e rest, h.state = .striking → h.timer.due = true → h.queue = e :: rest →
      let d := Device.decideEntry n e .stamped (s.dev.setHead n { h with strikeHigh := false, timer := none })
      (h.disablePending = true →
        exec (.strikeTimeExpiry n) s = .next ⟨(d.disableHead n).askEventPlace, s.pending⟩) ∧
      (h.disablePending = false → 0 < (s.dev.headEntry n).recoverTime →
        exec (.strikeTimeExpiry n) s =
          .next ⟨(d.setHead n { d.head n with
            state := .recovering, timer := Timer.start (s.dev.headEntry n).recoverTime true }).askEventPlace,
            s.pending⟩) ∧
      (h.disablePending = false → (s.dev.headEntry n).recoverTime = 0 →
        exec (.strikeTimeExpiry n) s =
          .next ⟨((d.setHead n { d.head n with state := .idle, timer := none }).startSetting n true).askEventPlace,
            s.pending⟩)) ∧
    (h.state ≠ .striking ∨ h.timer.due = false →
      exec (.strikeTimeExpiry n) s = .next ⟨s.dev.askEventPlace, s.pending⟩) ∧
    (h.state = .recovering → h.timer.due = true →
      exec (.recoverTimeExpiry n) s =
        .next ⟨((s.dev.setHead n { h with state := .idle, timer := none }).startSetting n true).askEventPlace,
          s.pending⟩) ∧
    (h.state ≠ .recovering ∨ h.timer.due = false →
      exec (.recoverTimeExpiry n) s = .next ⟨s.dev.askEventPlace, s.pending⟩)

/-! ### The pack unit -/

/-- A hide feed opens a pack with the next pack number or adds to the one open; at its target the pack closes when the
close buffer is EMPTY, and its PACK frame is placed when the report FIFO has room; otherwise it is held (R144 to R147). The fields
of the PACK frame in their places (R208). -/
def Obligations.PackFeedAddsAndCloses : Prop :=
  (∀ (n : Fin 4) (c : ClosedPack),
    let f := packFrame n c
    let b := f.payload
    f.kind = 0x21 ∧ f.addr = 1 ∧ b.length = 35 ∧
      Shows b [(0, 4, c.pack.number.toNat), (4, 4, c.pack.generation.toNat), (8, 2, c.pack.hides), (10, 1, n.val),
        (12, 1, c.pack.target), (13, 1, c.pack.unit.code.toNat), (14, 1, c.pack.resolution.code.toNat), (15, 8, c.pack.steps),
        (23, 8, c.pack.area), (31, 4, c.uptime.toNat)] ∧
      fieldAt 11 1 b < 16 ∧
      ∀ x ∈ [(0, c.flags.short), (1, c.flags.overfull), (2, c.flags.policyChange), (3, c.pack.overrange)],
        (fieldAt 11 1 b).testBit x.1 = x.2) ∧
  ∀ (n : Fin 4) (f : PackFeed) (d : Device), d.pku.slots.length = 4 →
    let t := d.feedPack n f
    let p : Pack := match (d.slot n).acc with
      | none => ⟨d.pku.nextPack, 1, f.target, f.steps, f.area, f.unit, f.resolution, f.generation, false⟩
      | some p => { p with
        hides := min (p.hides + 1) 65535
        steps := min (p.steps + f.steps) (2 ^ 64 - 1)
        area := min (p.area + f.area) (2 ^ 64 - 1)
        overrange := p.overrange || decide (2 ^ 64 - 1 < p.steps + f.steps) || decide (2 ^ 64 - 1 < p.area + f.area) }
    let closed : ClosedPack := ⟨p, ⟨false, false, false⟩, d.bpu.uptime⟩
    Touches [.pku, .lnk, .dec] d t ∧ (∀ m, m ≠ n → t.slot m = d.slot m) ∧
      t.pku.nextPack = (if (d.slot n).acc = none then d.pku.nextPack + 1 else d.pku.nextPack) ∧
      (p.hides < p.target ∨ (d.slot n).buf ≠ none →
        t.slot n = ⟨some p, (d.slot n).buf⟩ ∧ t.lnk = d.lnk ∧ t.dec = d.dec) ∧
      (p.target ≤ p.hides → (d.slot n).buf = none → d.reportRoom = true →
        t.slot n = ⟨none, none⟩ ∧ t.lnk = (d.placeReport (packFrame n closed)).lnk) ∧
      (p.target ≤ p.hides → (d.slot n).buf = none → d.reportRoom = false →
        t.slot n = ⟨none, some closed⟩ ∧ t.lnk = d.lnk ∧ t.dec = d.dec)

/-! ### The line control -/

/-- INPUT_SAMPLE and DEBOUNCE_EXPIRY: a level unlike the debounced one starts the debounce timer, one like it stops it; with
0 ms, or when the timer is due, the debounced level takes the raw level as an edge (R16, R169). -/
def Obligations.InputSamplesAreDebounced : Prop :=
  ∀ (n : Fin 8) (level : Bool) (s : State), s.dev.InService →
    let i := s.dev.lct.input n
    (level = i.debounced →
      exec (.inputSample n level) s =
        .next ⟨(s.dev.setInput n { i with raw := level, timer := none }).askEventPlace, s.pending⟩) ∧
    (level ≠ i.debounced → i.timer ≠ none →
      exec (.inputSample n level) s = .next ⟨(s.dev.setInput n { i with raw := level }).askEventPlace, s.pending⟩) ∧
    (level ≠ i.debounced → i.timer = none → 0 < (s.dev.lct.entry n).debounce →
      exec (.inputSample n level) s =
        .next ⟨(s.dev.setInput n { i with
          raw := level, timer := Timer.start (s.dev.lct.entry n).debounce false }).askEventPlace, s.pending⟩) ∧
    (level ≠ i.debounced → i.timer = none → (s.dev.lct.entry n).debounce = 0 →
      exec (.inputSample n level) s =
        .next ⟨((s.dev.setInput n { i with raw := level }).debouncedEdge n false).askEventPlace, s.pending⟩) ∧
    (i.timer.due = true →
      exec (.debounceExpiry n) s = .next ⟨(s.dev.debouncedEdge n true).askEventPlace, s.pending⟩) ∧
    (i.timer.due = false → exec (.debounceExpiry n) s = .next ⟨s.dev.askEventPlace, s.pending⟩)

/-- What a debounced edge of an enabled input does through its function (R161 to R163, R170): the belt run condition raises
BELT_START or BELT_STOP, resumes a line that it paused under AUTO_RESUME, or pauses a RUNNING one; the emergency stop
condition faults the line; an EVENT input raises its latch as it becomes active. As the line enters FAULTED a SETTING or READY head
becomes IDLE, a strike is aborted as STRIKE_ABORTED, its head disabled when that is pending, and other heads go on (R136); the
order of the heads is free (log 6). -/
def Obligations.DebouncedEdgeActsByFunction : Prop :=
  (∀ (m : Fin 4) (d : Device),
    let h := d.head m
    (h.state = .setting → d.faultHead m = d.setHead m { h with state := .idle, timer := none, retryUsed := false }) ∧
    (h.state = .ready → d.faultHead m = d.setHead m { h with state := .idle }) ∧
    (∀ e rest, h.state = .striking → h.queue = e :: rest →
      let v := Device.decideEntry m e .strikeAborted
        (d.setHead m { h with state := .idle, strikeHigh := false, timer := none })
      d.faultHead m = if h.disablePending then v.disableHead m else v) ∧
    (h.state = .disabled ∨ h.state = .idle ∨ h.state = .recovering ∨ h.state = .stalled → d.faultHead m = d)) ∧
  ∀ (n : Fin 8) (atTick : Bool) (d : Device),
    let i := d.lct.input n
    let e := d.setInput n { i with debounced := i.raw, timer := none }
    let entry := d.lct.entry n
    let t := d.debouncedEdge n atTick
    (entry.enable = false ∨ entry.function = .unused → t = e) ∧
    (entry.enable = true → entry.function = .beltRun →
      (e.lct.formBeltRun = d.lct.beltRun → t = e) ∧
      (e.lct.formBeltRun = true → d.lct.beltRun = false →
        t.lct = (let l := { e.lct with beltRun := true }.raise .beltStart
          if d.lct.lineState = .paused ∧ d.lct.control.autoResume = true ∧ d.lct.haltCause = .beltRun ∧
            d.ccu.committing = false ∧ d.ccu.valid = true ∧ d.hev.terms ≠ none ∧ d.sth.table ≠ none
          then { l with lineState := .running } else l) ∧ Touches [.bpu, .lct] d t) ∧
      (e.lct.formBeltRun = false → d.lct.beltRun = true →
        t.lct = (let l := { e.lct with beltRun := false }.raise .beltStop
          if d.lct.lineState = .running then { l with lineState := .paused, haltCause := .beltRun } else l) ∧
        t.bpu.pauseTimer = (if d.lct.lineState = .running ∧ d.bpu.outstanding ≠ [] then Timer.start 50 atTick
          else d.bpu.pauseTimer) ∧ Touches [.bpu, .lct] d t)) ∧
    (entry.enable = true → entry.function = .estop →
      (e.lct.formEstop = d.lct.estop → t = e) ∧
      (e.lct.formEstop = true → d.lct.estop = false → d.lct.lineState ≠ .init →
        t.lct = (let l := { e.lct with estop := true }
          (if d.lct.lineState = .faulted then l else { l with lineState := .faulted, haltCause := .estop }).raise .estop) ∧
        Touches [.bpu, .lct, .sth, .hev, .rtk, .lnk, .dec, .draws] d t ∧
        (d.lct.lineState = .faulted → t.sth = d.sth) ∧
        (d.lct.lineState ≠ .faulted → ∃ (f : Device) (order : List (Fin 4)) (draws : Nat),
          f.lct.lineState = .faulted ∧ Touches [.bpu, .lct] d f ∧ order.Perm [0, 1, 2, 3] ∧
            t = Device.raise { order.foldl (fun g m => g.faultHead m) f with draws := draws } .estop)) ∧
      (e.lct.formEstop = false → d.lct.estop = true →
        t = { e with lct := { e.lct with estop := false }.setLatch .estop LatchState.levelEnd })) ∧
    (entry.enable = true → entry.function = .event →
      (e.lct.inputActive n = true → t = e.raise (.input n)) ∧
      (e.lct.inputActive n = false → entry.levelMode = false → t = e) ∧
      (e.lct.inputActive n = false → entry.levelMode = true →
        t = { e with lct := e.lct.setLatch (.input n) LatchState.levelEnd }))

/-- A raise makes a CLEAR latch PENDING and no other latch changes (R171). With an UNMASKED PENDING latch and room in the
report FIFO, one EVENT frame is placed that carries exactly those latches, and each of them becomes HELD while its level is
active and CLEAR otherwise; without either, nothing happens (R173). -/
def Obligations.LatchesAreRaisedAndReported : Prop :=
  (∀ (l : Lct) (n : Latch) (i : Nat), (l.raise n).latches[i]? =
    if i = n.bit then l.latches[i]?.map (fun x => if x = .clear then .pending else x) else l.latches[i]?) ∧
  ∀ d : Device, d.lct.latches.length = 27 → d.lct.mask.length = 27 →
    let reported := fun i => d.lct.latches[i]? = some .pending ∧ d.lct.mask[i]? = some false
    let t := d.askEventPlace
    ((∃ i, reported i) → d.reportRoom = true →
      (∃ f : Frame, f.kind = kindEvent ∧ f.addr = targetPart ∧
        t.lnk = (d.placeReport f).lnk ∧ t.dec = (d.placeReport f).dec ∧
        f.payload.length = 9 ∧ f.payload.drop 4 = bytesOf 4 d.bpu.uptime.toNat ++ [d.lct.haltCause.code] ∧
        ∀ i < 27, ((fieldAt 0 4 f.payload).testBit i = true ↔ reported i)) ∧
      t.lct = { d.lct with latches := t.lct.latches } ∧
      (∀ i, reported i → t.lct.latches[i]? = some (if d.lct.levelActive i then .held else .clear)) ∧
      (∀ i, ¬ reported i → t.lct.latches[i]? = d.lct.latches[i]?) ∧
      Touches [.lct, .lnk, .dec] d t) ∧
    ((¬ ∃ i, reported i) ∨ d.reportRoom = false → t = d)

/-! ### Calibration custody -/

/-- COMMIT_CAL by its tests in their order: refused in another state than IDLE, under the lock or at the top of the audit counter,
while a commit is in flight, with a segment UNSET, or with a wrong check sum; otherwise the commit starts, with the commit timer
at 400 ms, the target seal blank and the erase of the set area begun (R181, R182, R220; log 7). SEAL_WRITE_COMPLETE ends it with
success: the new set, its seal of the raised audit count, the divider and the promotion held back. COMMIT_TIMER_EXPIRY fails it: the
store stops where it stands with the target seal blank, and the active set, audit count and working copy are kept (R183, R184, R188). With no commit in flight neither has an effect (log 12). -/
def Obligations.CommitIsRefusedOrStartsAndEnds : Prop :=
  (∀ (sum : Word32) (s : State), s.dev.ReadyFor →
    let d := s.dev.heard
    let c := s.dev.ccu
    (s.dev.lct.lineState ≠ .idle →
      exec (.commitCal sum) s = .next ⟨d.replied kindCommitCal ⟨.wrongState, 1, []⟩, s.pending⟩) ∧
    (s.dev.lct.lineState = .idle →
      (c.lock.locked = true ∨ c.audit = 2 ^ 32 - 1 →
        exec (.commitCal sum) s = .next ⟨d.replied kindCommitCal ⟨.locked, 0, []⟩, s.pending⟩) ∧
      (c.lock.locked = false → c.audit ≠ 2 ^ 32 - 1 →
        (c.committing = true →
          exec (.commitCal sum) s = .next ⟨d.replied kindCommitCal ⟨.notNow, 0, []⟩, s.pending⟩) ∧
        (c.committing = false →
          (∀ i < 16, c.segments.getD i .unset = .unset → (∀ j < i, c.segments.getD j .unset ≠ .unset) →
            exec (.commitCal sum) s =
              .next ⟨d.replied kindCommitCal ⟨.badValue, if i < 13 then i else if i < 15 then 256 + (i - 13) else 512, []⟩,
                s.pending⟩) ∧
          ((∀ i < 16, c.segments.getD i .unset ≠ .unset) →
            (sum ≠ checkSum c.working →
              exec (.commitCal sum) s =
                .next ⟨d.replied kindCommitCal ⟨.badChecksum, 0, bytesOf 4 (checkSum c.working).toNat⟩, s.pending⟩) ∧
            (sum = checkSum c.working → ∃ v : Device,
              exec (.commitCal sum) s =
                .next ⟨v.replied kindCommitCal ⟨.ok, 0, 1 :: (bytesOf 4 c.audit ++ bytesOf 1 c.target)⟩, s.pending⟩ ∧
              Touches [.ccu, .draws] d v ∧
              v.ccu = { c with
                committing := true
                commitTimer := Timer.start 400 false
                stage := .erasing
                store := { c.store.setSeal c.target none with setArea := v.ccu.store.setArea } } ∧
              v.ccu.store.setArea.length = c.store.setArea.length ∧
              (c.store.setArea ≠ [] → none ∈ v.ccu.store.setArea) ∧
              ∀ i < c.store.setArea.length,
                v.ccu.store.setArea[i]? = some none ∨ v.ccu.store.setArea[i]? = c.store.setArea[i]?)))))) ∧
  (∀ s : State, s.dev.InService →
    let c := s.dev.ccu
    let lock : CalStore → CalStore := fun st =>
      if c.promotionPending then { st with lockCell := some ⟨false, c.lock.locked || c.lock.lockNext⟩ } else st
    (c.committing = true → ∃ u : Device,
      exec .sealWriteComplete s = .next ⟨u.askEventPlace, s.pending⟩ ∧ Touches [.ccu, .bpu] s.dev u ∧
        u.bpu = { s.dev.bpu with divider := u.ccu.ppl } ∧
        u.ccu = { c with
          store := lock { c.store.setSeal c.target (some ⟨c.audit + 1, checkSum c.working⟩) with setArea := c.working }
          stage := .resting, commitTimer := none, audit := c.audit + 1, active := c.working, valid := true
          prefixSums := prefixSumsOf c.working, segments := List.replicate 16 .same, lastResult := .done
          committing := false, promotionPending := false }) ∧
    (c.committing = true → c.commitTimer.due = true → ∃ u : Device,
      exec .commitTimerExpiry s = .next ⟨u.askEventPlace, s.pending⟩ ∧ Touches [.ccu] s.dev u ∧
        u.ccu = { c with
          store := lock (c.store.setSeal c.target none)
          stage := .resting, commitTimer := none, lastResult := .failed, committing := false, promotionPending := false }) ∧
    (c.committing = false →
      exec .sealWriteComplete s = .next ⟨s.dev.askEventPlace, s.pending⟩ ∧
        exec .commitTimerExpiry s = .next ⟨s.dev.askEventPlace, s.pending⟩) ∧
    (c.commitTimer.due = false → exec .commitTimerExpiry s = .next ⟨s.dev.askEventPlace, s.pending⟩))


/-! ### The link -/

/-- A reply joins the reply FIFO as the newest, a report the report FIFO, a forwarded frame the forward FIFO, when there is
room; an IDLE transmitter, which has taken what there was, takes the newcomer's frame at once (R198, R201 to R203). -/
def Obligations.FramesJoinTheirFifosAndWakeTheTransmitter : Prop :=
  ∀ (d : Device) (f : Frame) (kind : Byte) (r : Reply), d.lnk.txSettled → d.dec.owed = [] →
    (Answered kind r d (d.placeReply (r.message kind)) ∧ Touches [.lnk] d (d.placeReply (r.message kind)) ∧
      (d.placeReply (r.message kind)).lnk =
        { d.lnk with
          replyFifo := (d.placeReply (r.message kind)).lnk.replyFifo
          downTx := (d.placeReply (r.message kind)).lnk.downTx }) ∧
    (d.lnk.reportFifo.length < 32 →
      d.placeReport f = { d with lnk :=
        if d.lnk.downTx = none then { d.lnk with downTx := some f }
        else { d.lnk with reportFifo := d.lnk.reportFifo ++ [f] } }) ∧
    (32 ≤ d.lnk.reportFifo.length → d.placeReport f = d) ∧
    (d.lnk.forwardFifo.length < 8 →
      d.forwardDown f = { d with lnk :=
        if d.lnk.downTx = none then { d.lnk with downTx := some f }
        else { d.lnk with forwardFifo := d.lnk.forwardFifo ++ [f] } }) ∧
    (8 ≤ d.lnk.forwardFifo.length →
      d.forwardDown f =
        Device.raise { d with lnk := { d.lnk with forwardDrops := sat16 d.lnk.forwardDrops 1 } } .forwardDrop)

/-- DOWNSTREAM_FRAME_END: the transmitter takes the next part of the oldest reply, else the oldest report, whose place goes
to the evaluator and then to the pack unit, else the oldest forwarded frame, else it is IDLE; with the last part of a reply
its place goes to the oldest owed request (R147, R201 to R203, R213). UPSTREAM_FRAME_END: the oldest frame held, or IDLE (R197).
The evaluator's record is the FINAL one furthest behind the next hide number (R91), the pack unit's slot the lowest with a HELD
buffer (R147); a slot whose buffer empties closes its pack anew at the target, and above it with OVERFULL (R148). -/
def Obligations.FrameEndTakesTheNextFrameInOrder : Prop :=
  (∀ h : Hev,
    (h.oldestFinal = none ↔ ∀ (i : Nat) (x : HideRecord), h.store[i]? = some (some x) → x.disposition = .pending) ∧
    ∀ (slot : Nat) (r : HideRecord), h.oldestFinal = some (slot, r) →
      h.store[slot]? = some (some r) ∧ r.disposition ≠ .pending ∧
        ∀ (i : Nat) (x : HideRecord), h.store[i]? = some (some x) → x.disposition ≠ .pending →
          (h.nextHide - x.number).toNat ≤ (h.nextHide - r.number).toNat) ∧
  (∀ d : Device,
    (d.heldSlot = none ↔ ∀ n, (d.slot n).buf = none) ∧
    ∀ n, d.heldSlot = some n ↔ (d.slot n).buf ≠ none ∧ ∀ m < n, (d.slot m).buf = none) ∧
  (∀ (n : Fin 4) (c : ClosedPack) (d : Device), d.pku.slots.length = 4 → (d.slot n).buf = some c →
    let placed := Device.placeReport (packFrame n c) (d.setSlot n { d.slot n with buf := none })
    ((d.slot n).acc = none → d.reportPack n = placed) ∧
    ∀ p, (d.slot n).acc = some p →
      (p.hides < p.target → d.reportPack n = placed) ∧
      (p.target ≤ p.hides →
        let closed : ClosedPack := ⟨p, ⟨false, decide (p.target < p.hides), false⟩, d.bpu.uptime⟩
        d.reportPack n = if placed.reportRoom then Device.placeReport (packFrame n closed) (placed.setSlot n ⟨none, none⟩)
          else placed.setSlot n ⟨none, some closed⟩)) ∧
  ∀ s : State, s.dev.InService →
    let l := s.dev.lnk
    (l.downTx = none → exec .downstreamFrameEnd s = .next ⟨s.dev.askEventPlace, s.pending⟩) ∧
    (l.downTx ≠ none →
      (∀ e rest, l.replyFifo = e :: rest → e.taken + 1 < partCount e.message →
        exec .downstreamFrameEnd s =
          .next ⟨Device.askEventPlace { s.dev with lnk := { l with
            downTx := some (replyPart e.message e.taken)
            replyFifo := { e with taken := e.taken + 1 } :: rest } }, s.pending⟩) ∧
      (∀ e rest, l.replyFifo = e :: rest → partCount e.message ≤ e.taken + 1 →
        exec .downstreamFrameEnd s =
          .next ⟨Device.askEventPlace { s.dev with
            lnk := { l with
              downTx := some (replyPart e.message e.taken)
              replyFifo := rest ++ (match s.dev.dec.owed with
                | [] => []
                | kind :: _ => [⟨(Reply.refuse .notNow 1).message kind, 0⟩]) }
            dec := { s.dev.dec with owed := s.dev.dec.owed.tail } }, s.pending⟩) ∧
      (∀ f rest, l.replyFifo = [] → l.reportFifo = f :: rest →
        let d := { s.dev with lnk := { l with downTx := some f, reportFifo := rest } }
        exec .downstreamFrameEnd s =
          .next ⟨(match s.dev.hev.oldestFinal, s.dev.heldSlot with
            | some (slot, r), _ => d.reportHide slot r
            | none, some n => d.reportPack n
            | none, none => d).askEventPlace, s.pending⟩) ∧
      (∀ f rest, l.replyFifo = [] → l.reportFifo = [] → l.forwardFifo = f :: rest →
        exec .downstreamFrameEnd s =
          .next ⟨Device.askEventPlace { s.dev with lnk := { l with downTx := some f, forwardFifo := rest } }, s.pending⟩) ∧
      (l.replyFifo = [] → l.reportFifo = [] → l.forwardFifo = [] →
        exec .downstreamFrameEnd s =
          .next ⟨Device.askEventPlace { s.dev with lnk := { l with downTx := none } }, s.pending⟩)) ∧
    (l.upTx = none → exec .upstreamFrameEnd s = .next ⟨s.dev.askEventPlace, s.pending⟩) ∧
    (l.upTx ≠ none →
      exec .upstreamFrameEnd s =
        .next ⟨Device.askEventPlace { s.dev with lnk := { l with upTx := l.upFifo.head?, upFifo := l.upFifo.tail } },
          s.pending⟩)

/-- A frame of the bar goes downstream; a frame for the bar goes upstream, at once when the upstream transmitter is IDLE,
or is dropped when the FIFO holds 4; a frame for neither target is discarded with LINK_ERROR (R196 to R198). -/
def Obligations.BarFramesAreForwarded : Prop :=
  ∀ (kind addr : Byte) (payload : List Byte) (s : State), s.dev.InService →
    exec (.barReplyFrame kind addr payload) s =
      .next ⟨(s.dev.heardUp.forwardDown ⟨kind, addr, payload⟩).askEventPlace, s.pending⟩ ∧
    (let l := s.dev.lnk
    let f : Frame := ⟨kind, targetBar, payload⟩
    (l.upFifo.length < 4 →
      (l.upTx ≠ none →
        exec (.barForwardFrame kind payload) s =
          .next ⟨Device.askEventPlace { s.dev with lnk := { l with
            downReceiver := .hunting, upFifo := l.upFifo ++ [f] } }, s.pending⟩) ∧
      (l.upTx = none → l.upFifo = [] →
        exec (.barForwardFrame kind payload) s =
          .next ⟨Device.askEventPlace { s.dev with lnk := { l with downReceiver := .hunting, upTx := some f } },
            s.pending⟩)) ∧
    (4 ≤ l.upFifo.length →
      exec (.barForwardFrame kind payload) s =
        .next ⟨(Device.raise { s.dev with lnk := { l with
          downReceiver := .hunting, upstreamDrops := sat16 l.upstreamDrops 1 } } .forwardDrop).askEventPlace,
          s.pending⟩)) ∧
    exec (.badTargetFrame addr kind payload) s =
      .next ⟨(Device.raise { s.dev with lnk := { s.dev.lnk with
        downReceiver := .hunting, badFrames := sat16 s.dev.lnk.badFrames 1 } } .linkError).askEventPlace, s.pending⟩

/-- In HUNTING a receiver discards each byte that is no start delimiter; with a delimiter it is RECEIVING, and its frame time-out of
1 ms starts (R195). In RECEIVING bytes are gathered while the frame is not whole; a length above 256 or a wrong CRC discards the
frame, and so does the time-out; each discard is counted and raises LINK_ERROR, and the receiver hunts again (R195). A byte that makes
a good frame whole is the command of that frame: it is routed, and its receiver hunts again (R195, R196, R198). The bytes of a row act
one after another, each as an event of its own (log 18). -/
def Obligations.UnfinishedAndBadFramesAreDiscarded : Prop :=
  ∀ s : State, s.dev.InService →
    let counted := fun d : Device =>
      (Device.raise { d with lnk := { d.lnk with badFrames := sat16 d.lnk.badFrames 1 } } .linkError).askEventPlace
    ∀ port : Port,
      (exec (.discardedFrame port []) s = .next s ∧
        ∀ front back : List Byte, ∃ t, exec (.discardedFrame port front) s = .next t ∧
          exec (.discardedFrame port (front ++ back)) s = exec (.discardedFrame port back) t) ∧
      (∀ b : Byte, s.dev.lnk.receiver port = .hunting →
        (b ≠ 0x7E → exec (.discardedFrame port [b]) s = .next ⟨s.dev.askEventPlace, s.pending⟩) ∧
        (b = 0x7E → exec (.discardedFrame port [b]) s =
          .next ⟨(s.dev.setReceiver port (.receiving [] (Timer.start 1 false))).askEventPlace, s.pending⟩)) ∧
      (∀ (b : Byte) before timeout, s.dev.lnk.receiver port = .receiving before timeout →
        (judge (before ++ [b]) = .incomplete →
          exec (.discardedFrame port [b]) s =
            .next ⟨(s.dev.setReceiver port (.receiving (before ++ [b]) timeout)).askEventPlace, s.pending⟩) ∧
        (judge (before ++ [b]) = .discard →
          exec (.discardedFrame port [b]) s = .next ⟨counted (s.dev.setReceiver port .hunting), s.pending⟩) ∧
        (∀ f : Frame, judge (before ++ [b]) = .good f →
          exec (.discardedFrame port [b]) s =
            exec (match port with | .upstream => upstreamCommand f | .downstream => downstreamCommand f) s)) ∧
      (∀ before timeout, s.dev.lnk.receiver port = .receiving before timeout →
        (timeout.due = true →
          exec (.frameTimeoutExpiry port) s = .next ⟨counted (s.dev.setReceiver port .hunting), s.pending⟩) ∧
        (timeout.due = false → exec (.frameTimeoutExpiry port) s = .next ⟨s.dev.askEventPlace, s.pending⟩)) ∧
      (s.dev.lnk.receiver port = .hunting →
        exec (.frameTimeoutExpiry port) s = .next ⟨s.dev.askEventPlace, s.pending⟩)

/-- A frame's bytes, with the CRC formed over kind, address, length and payload, are read back as that frame; with any other
check value they are discarded (R193 to R195). -/
def Obligations.FrameBytesAreReadBackAsTheFrame : Prop :=
  ∀ (f : Frame) (check : Nat), f.payload.length ≤ 256 →
    f.wire = startDelimiter :: (f.body ++ bytesOf 2 (crc16 f.body).toNat) ∧
      judge (f.body ++ bytesOf 2 (crc16 f.body).toNat) = .good f ∧
      (∀ k < (f.body ++ bytesOf 2 (crc16 f.body).toNat).length,
        judge ((f.body ++ bytesOf 2 (crc16 f.body).toNat).take k) = .incomplete) ∧
      (check < 65536 → check ≠ (crc16 f.body).toNat → judge (f.body ++ bytesOf 2 check) = .discard)

/-- LOAD_PART: part 0 opens the assembly, later parts in order extend it, the last one gives the decoder the whole message;
any other index abandons it, which is counted and raises LINK_ERROR; so does the part time-out of 50 ms (R199, R200). -/
def Obligations.LoadPartsAreAssembled : Prop :=
  ∀ (part : Byte) (bytes : List Byte) (s : State), s.dev.InService →
    let d := s.dev.heard
    let abandoned := fun d : Device => Device.raise { d with lnk := { d.lnk with
      assembly := none, incompleteLoads := sat16 d.lnk.incompleteLoads 1 } } .linkError
    let index := part.toNat % 16
    let deliver := fun (message : List Byte) (d : Device) =>
      (Device.answer kindLoad (Device.performLoad message)
        { d with lnk := { d.lnk with assembly := none } }).askEventPlace
    let opened := fun (d : Device) =>
      if part.msb then deliver bytes d
      else Device.askEventPlace { d with lnk := { d.lnk with assembly := some ⟨1, bytes, Timer.start 50 false⟩ } }
    (s.dev.lnk.assembly = none →
      exec (.loadPart (part :: bytes)) s = .next ⟨if index = 0 then opened d else (abandoned d).askEventPlace, s.pending⟩) ∧
    (∀ a : Assembly, s.dev.lnk.assembly = some a →
      exec (.loadPart (part :: bytes)) s =
        .next ⟨if index = 0 then opened (abandoned d)
          else if index = a.next ∧ part.msb = true then deliver (a.bytes ++ bytes) d
          else if index = a.next ∧ a.next < 15 then
            Device.askEventPlace { d with lnk := { d.lnk with
              assembly := some ⟨a.next + 1, a.bytes ++ bytes, Timer.start 50 false⟩ } }
          else (abandoned d).askEventPlace, s.pending⟩ ∧
      (a.timeout.due = true → exec .loadPartTimeout s = .next ⟨(abandoned s.dev).askEventPlace, s.pending⟩) ∧
      (a.timeout.due = false → exec .loadPartTimeout s = .next ⟨s.dev.askEventPlace, s.pending⟩)) ∧
    exec (.loadPart []) s = .next ⟨(Device.answer kindLoad (Device.performLoad []) d).askEventPlace, s.pending⟩ ∧
    (s.dev.lnk.assembly = none → exec .loadPartTimeout s = .next ⟨s.dev.askEventPlace, s.pending⟩)

/-! ### The station's requests -/

/-- START, STOP and ACK_FAULT by their tests, with the line state after them as the reply's byte, or the reason (R159, R160,
R164, R215); ACK_FAULT starts setting the heads that are IDLE with work (R137). -/
def Obligations.LineStateRequestsMoveTheLine : Prop :=
  ∀ s : State, s.dev.ReadyFor →
    let d := s.dev.heard
    let l := s.dev.lct
    let c := s.dev.ccu
    (l.lineState = .running → exec .start s = .next ⟨d.replied kindStart ⟨.ok, 0, [2]⟩, s.pending⟩) ∧
    (l.lineState = .faulted → exec .start s = .next ⟨d.replied kindStart ⟨.wrongState, 1, []⟩, s.pending⟩) ∧
    (l.lineState = .idle ∨ l.lineState = .paused →
      (c.committing = true → exec .start s = .next ⟨d.replied kindStart ⟨.notNow, 0, []⟩, s.pending⟩) ∧
      (c.committing = false → c.valid = false →
        exec .start s = .next ⟨d.replied kindStart ⟨.wrongState, 2, []⟩, s.pending⟩) ∧
      (c.committing = false → c.valid = true → s.dev.hev.terms = none →
        exec .start s = .next ⟨d.replied kindStart ⟨.wrongState, 3, []⟩, s.pending⟩) ∧
      (c.committing = false → c.valid = true → s.dev.hev.terms ≠ none → s.dev.sth.table = none →
        exec .start s = .next ⟨d.replied kindStart ⟨.wrongState, 4, []⟩, s.pending⟩) ∧
      (c.committing = false → c.valid = true → s.dev.hev.terms ≠ none → s.dev.sth.table ≠ none →
        exec .start s =
          .next ⟨Device.replied kindStart ⟨.ok, 0, [2]⟩ { d with
            bpu := { s.dev.bpu with pauseTimer := none }, lct := { l with lineState := .running } }, s.pending⟩)) ∧
    (l.lineState = .running →
      exec .stop s =
        .next ⟨Device.replied kindStop ⟨.ok, 0, [3]⟩ { d with
          bpu := { s.dev.bpu with
            freeRunLeft := 0
            pauseTimer := if s.dev.bpu.outstanding = [] then s.dev.bpu.pauseTimer else Timer.start 50 false }
          lct := { l with lineState := .paused, haltCause := .stop } }, s.pending⟩) ∧
    (l.lineState = .paused →
      exec .stop s = .next ⟨Device.replied kindStop ⟨.ok, 0, [3]⟩ { d with lct := { l with haltCause := .stop } },
        s.pending⟩) ∧
    (l.lineState = .idle → exec .stop s = .next ⟨d.replied kindStop ⟨.ok, 0, [1]⟩, s.pending⟩) ∧
    (l.lineState = .faulted → exec .stop s = .next ⟨d.replied kindStop ⟨.ok, 0, [4]⟩, s.pending⟩) ∧
    (l.lineState ≠ .faulted → exec .ackFault s = .next ⟨d.replied kindAckFault ⟨.wrongState, 1, []⟩, s.pending⟩) ∧
    (l.lineState = .faulted → l.estop = true →
      exec .ackFault s = .next ⟨d.replied kindAckFault ⟨.wrongState, 5, []⟩, s.pending⟩) ∧
    (l.lineState = .faulted → l.estop = false → s.dev.sth.heads.length = 4 → ∃ v : Device,
      exec .ackFault s = .next ⟨v.replied kindAckFault ⟨.ok, 0, [3]⟩, s.pending⟩ ∧
      v.lct = { l with lineState := .paused } ∧ Touches [.lct, .sth] d v ∧
      ∀ n : Fin 4, v.head n = (match s.dev.head n with
        | h => match h.state, h.queue with
          | .idle, e :: _ => { h with
            state := .setting, retryUsed := false, lastShift := some e.shiftWord
            timer := Timer.start (s.dev.headEntry n).setTime false }
          | _, _ => h))

/-- QUERY and the READs performed on arrival answer OK with what stands, or BAD_SEGMENT, and change nothing but the link; the fields of
the status block stand in their places, those of absent items but for what R206 states left out (log 10), milliseconds left within one
of the count (log 8) (R17, R38, R68, R93, R139, R152, R175, R190, R204, R94, R110, R114, R140, R168, R191, R210, R219, R224). -/
def Obligations.QueryAndReadsShowTheState : Prop :=
  ∀ (seg : Byte) (s : State), s.dev.ReadyFor →
    let d := s.dev.heard
    let answers := fun (c : Instr) (r : Reply) => exec c s = .next ⟨d.replied kindRead r, s.pending⟩
    let bad : Reply := ⟨.badSegment, 0, []⟩
    exec .query s = .next ⟨d.replied kindQuery ⟨.ok, 0, d.statusBlock⟩, s.pending⟩ ∧
    (s.dev.ccu.segments.length = 16 → s.dev.lct.latches.length = 27 → s.dev.lct.mask.length = 27 →
      let b := d.statusBlock
      let bpu := s.dev.bpu
      let lcn := s.dev.lcn
      let rtk := s.dev.rtk
      let hev := s.dev.hev
      let lct := s.dev.lct
      let ccu := s.dev.ccu
      let lnk := s.dev.lnk
      let one := fun x : Bool => if x then 1 else 0
      let left := fun (t : Countdown) (ms : Nat) => ms = t.most ∨ ms + 1 = t.most
      let entries := fun p : Region → Bool => (rtk.table.filter p).length
      let records := fun p : HideRecord → Bool => (hev.store.filter fun x => x.any p).length
      b.length = 292 ∧
      Shows b [(0, 6, bpu.position.toNat), (6, 6, bpu.mark.toNat), (12, 1, if bpu.direction = .forward then 0 else 1),
        (13, 1, one lct.control.freeRun), (14, 2, bpu.divider), (16, 4, bpu.nextLine.toNat), (20, 1, bpu.outstanding.length),
        (42, 4, bpu.uptime.toNat)] ∧
      (∀ o, bpu.outstanding[0]? = some o → Shows b [(21, 4, o.line.toNat), (25, 6, o.pos.toNat)]) ∧
      (∀ o, bpu.outstanding[1]? = some o → Shows b [(31, 4, o.line.toNat), (35, 6, o.pos.toNat)]) ∧
      (bpu.pauseTimer = none → Shows b [(41, 1, 255)]) ∧
      (∀ t, bpu.pauseTimer = some t → ∃ ms, left t ms ∧ Shows b [(41, 1, ms)]) ∧
      Shows b [(46, 4, lcn.expected.toNat), (50, 1, lcn.trailing), (51, 4, lcn.overflow), (55, 1, lcn.queue.length),
        (56, 1, match lcn.lastStatus with | some .clean => 0 | some .dusty => 1 | some .lampLow => 2 | none => 255),
        (57, 2, lcn.missed), (59, 2, lcn.stray), (61, 2, lcn.malformed)] ∧
      Shows b [(63, 1, rtk.stack.length), (64, 1, entries fun r => r.kind == .leather && r.state == .opened),
        (65, 1, entries fun r => r.kind == .gap && r.state == .opened), (66, 1, entries fun r => r.state == .closedWait),
        (67, 4, rtk.exhaustion.toNat), (71, 2, rtk.linesProcessed), (73, 1, one rtk.prevLine.isSome),
        (78, 1, one rtk.work.isSome)] ∧
      (∀ o, rtk.prevLine = some o → Shows b [(74, 4, o.line.toNat)]) ∧
      Shows b [(79, 1, one hev.terms.isSome), (80, 4, hev.generation.toNat), (84, 4, hev.nextHide.toNat),
        (88, 1, records fun _ => true), (89, 1, records fun r => r.disposition == .pending),
        (90, 1, records fun r => r.disposition != .pending), (91, 2, hev.scraps), (93, 2, hev.discarded)] ∧
      Shows b [(95, 1, one s.dev.sth.table.isSome)] ∧
      (∀ n : Fin 4,
        let h := s.dev.head n
        let o := 96 + 13 * n.val
        Shows b [(o, 1, h.state.code.toNat),
          (o + 1, 1, bitsOf [h.disablePending, h.retryUsed, h.strikeHigh, !h.queue.isEmpty]), (o + 2, 1, h.queue.length)] ∧
        (∀ e rest, h.queue = e :: rest → Shows b [(o + 3, 4, e.hide.toNat), (o + 7, 6, e.fire.toNat)]) ∧
        (h.queue = [] → Shows b [(o + 7, 6, 0)])) ∧
      Shows b [(148, 4, s.dev.pku.nextPack.toNat)] ∧
      (∀ n : Fin 4,
        let p := s.dev.slot n
        let o := 152 + 16 * n.val
        Shows b [(o, 1, one p.acc.isSome), (o + 8, 1, one p.buf.isSome)] ∧
        (∀ a, p.acc = some a → Shows b [(o + 1, 4, a.number.toNat), (o + 5, 2, a.hides), (o + 7, 1, a.target)]) ∧
        (∀ c, p.buf = some c → Shows b [(o + 9, 4, c.pack.number.toNat), (o + 13, 2, c.pack.hides),
          (o + 15, 1, bitsOf [c.flags.short, c.flags.overfull, c.flags.policyChange, c.pack.overrange])])) ∧
      Shows b [(216, 1, lct.lineState.code.toNat), (217, 1, lct.haltCause.code.toNat),
        (218, 4, bitsOf [lct.control.fwdLines, lct.control.autoResume, lct.control.freeRun] + 256 * lct.control.rate),
        (222, 1, bitsOf [lct.beltRun, lct.estop]), (251, 1, one lct.wants)] ∧
      (∀ n : Fin 8,
        let i := lct.input n
        Shows b [(223 + 2 * n.val, 1, bitsOf [i.raw, i.debounced, lct.inputActive n, i.timer.isSome])] ∧
        ∀ t, i.timer = some t → ∃ ms, left t ms ∧ Shows b [(224 + 2 * n.val, 1, min ms 255)]) ∧
      (∀ i < 27, (fieldAt 239 4 b).testBit i = (lct.latches[i]? == some .pending) ∧
        (fieldAt 243 4 b).testBit i = (lct.latches[i]? == some .held) ∧
        (fieldAt 247 4 b).testBit i = (lct.mask[i]? == some true)) ∧
      Shows b [(252, 1, one ccu.valid), (253, 4, ccu.audit), (257, 1, one ccu.committing),
        (260, 1, match ccu.lastResult with | .none => 0 | .done => 1 | .failed => 2),
        (277, 1, bitsOf [ccu.lock.lockNext, ccu.lock.locked, ccu.promotionPending, ccu.strapFitted])] ∧
      (∀ t, ccu.commitTimer = some t → ∃ ms, left t ms ∧ Shows b [(258, 2, ms)]) ∧
      (∀ i < 16, Shows b [(261 + i, 1, match ccu.segments.getD i .unset with | .same => 0 | .loaded => 1 | .unset => 2)]) ∧
      Shows b [(278, 2, lnk.badFrames), (280, 2, lnk.forwardDrops), (282, 2, lnk.upstreamDrops), (284, 2, lnk.incompleteLoads),
        (286, 1, lnk.upFifo.length), (287, 1, lnk.replyFifo.length + s.dev.dec.reservations), (288, 1, lnk.reportFifo.length),
        (289, 1, lnk.forwardFifo.length), (290, 1, match lnk.assembly with | none => 0 | some a => a.next + 1),
        (291, 1, one lnk.downTx.isSome)]) ∧
    (∀ e : StampEntry, e.bytes.length = 15 ∧
      Shows e.bytes [(0, 4, e.hide.toNat), (4, 1, e.slot), (5, 6, e.fire.toNat),
        (11, 3, ((((e.wheels.face.toNat * 16 + e.wheels.d1.toNat) * 16 + e.wheels.d2.toNat) * 16 + e.wheels.d3.toNat) * 16 +
          e.wheels.d4.toNat) * 16 + e.wheels.d5.toNat), (14, 1, e.force)]) ∧
    (∀ t : CalTable,
      (t.segments ≤ seg.toNat → answers (t.readRow seg) bad) ∧
      (seg.toNat < t.segments →
        answers (t.readRow seg) ⟨.ok, 0, [t.code, seg] ++ ([indication s.dev.ccu.valid] ++ bytesOf 4 s.dev.ccu.audit ++
          [(s.dev.ccu.segments.getD (t.segmentIndex seg.toNat) .unset).code] ++
          (if t = .conditioning then
            bytesOf 1 (bitsOf ((segmentWords t seg.toNat s.dev.ccu.active).map Option.isNone)) else []) ++
          (segmentWords t seg.toNat s.dev.ccu.active).flatMap fun w => bytesOf 2 (w.getD 65535))⟩)) ∧
    (seg ≠ 0 → answers (.readTerms seg) bad ∧ answers (.readHeads seg) bad ∧ answers (.readInputs seg) bad) ∧
    (seg = 0 →
      (s.dev.hev.terms = none → answers (.readTerms seg) ⟨.ok, 0, [3, 0, 0, 0, 0, 0, 0]⟩) ∧
      (∀ t, s.dev.hev.terms = some t →
        answers (.readTerms seg) ⟨.ok, 0, [3, 0, 1] ++ bytesOf 4 s.dev.hev.generation.toNat ++ t.bytes⟩) ∧
      (s.dev.sth.table = none → answers (.readHeads seg) ⟨.ok, 0, [4, 0, 0]⟩) ∧
      (∀ t, s.dev.sth.table = some t → answers (.readHeads seg) ⟨.ok, 0, [4, 0, 1] ++ t.flatMap HeadEntry.bytes⟩) ∧
      answers (.readInputs seg) ⟨.ok, 0, [5, 0] ++ s.dev.lct.table.flatMap InputEntry.bytes⟩) ∧
    (6 ≤ seg.toNat → answers (.readRecords seg) bad) ∧
    (seg.toNat < 6 →
      answers (.readRecords seg) ⟨.ok, 0, [9, seg] ++ (List.range 4).flatMap fun i =>
        recordSlotBytes (4 * seg.toNat + i) (s.dev.record (4 * seg.toNat + i))⟩) ∧
    (4 ≤ seg.toNat → answers (.readQueues seg) bad) ∧
    ∀ n : Fin 4, seg.toNat = n.val → ∃ head : List Byte, head.length = 11 ∧
      answers (.readQueues seg)
        ⟨.ok, 0, [10, seg] ++ (head ++ (s.dev.head n).queue.flatMap StampEntry.bytes)⟩ ∧
      head[0]? = some (s.dev.head n).state.code ∧
      (let h := s.dev.head n
      Shows head [(1, 1, bitsOf [h.disablePending, h.retryUsed, h.lastShift.isSome, h.lastReadback.isSome]),
        (10, 1, h.queue.length)]) ∧
      (∀ w, (s.dev.head n).lastShift = some w → fieldAt 2 4 head = w.toNat) ∧
      ∀ w, (s.dev.head n).lastReadback = some w → fieldAt 6 4 head = w.toNat

/-- A LOAD or READ naming no table or area it can take answers BAD_TABLE, a message of unknown kind or wrong length BAD_FRAME
with the kind received (R212, R218, R219). Without a reply place, or with a request owed, no request is performed: its kind
joins the owed list, or with that full LINK_ERROR is raised (R212, R213). -/
def Obligations.RequestsThatAreNotPerformed : Prop :=
  (∀ (a b : Byte) (data : List Byte) (s : State), s.dev.ReadyFor →
    let d := s.dev.heard
    exec (.loadBadTable a b data) s = .next ⟨d.replied kindLoad ⟨.badTable, 0, []⟩, s.pending⟩ ∧
      exec (.readBadArea a b) s = .next ⟨d.replied kindRead ⟨.badTable, 0, []⟩, s.pending⟩ ∧
      exec (.unknownRequest a data) s = .next ⟨d.replied a ⟨.badFrame, 0, []⟩, s.pending⟩) ∧
  (∀ (kind : Byte) (message : List Byte), kind ≠ kindLoad →
    (messageLegal kind message.length = false ↔ requestCommand kind message = .unknownRequest kind message) ∧
      requestKind (requestCommand kind message) = some kind) ∧
  ∀ (c : Instr) (kind : Byte) (s : State), requestKind c = some kind → s.dev.InService →
    4 ≤ s.dev.lnk.replyFifo.length + s.dev.dec.reservations ∨ s.dev.dec.owed ≠ [] →
    exec c s = .next ⟨Device.askEventPlace
      (if s.dev.dec.owed.length < 16 then
        { s.dev.heard with dec := { s.dev.dec with owed := s.dev.dec.owed ++ [kind] } }
      else s.dev.heard.raise .linkError), s.pending⟩

/-- LOAD_WIDTHS, LOAD_MASK and LOAD_CONDITIONING by the tests of R180 in their order; one that passes writes its words into
the working copy, marks the segment LOADED, and answers the check sum of the working copy (R180). The first word outside its values
is named, by its cell or by its field's place, and then a pitch out of bounds as PPL (R36, R177, R180, R209). -/
def Obligations.CalibrationLoadsWriteTheWorkingCopy : Prop :=
  ∀ (t : CalTable) (seg : Byte) (data : List Byte) (s : State), s.dev.ReadyFor →
    let d := s.dev.heard
    let c := s.dev.ccu
    let words := wordsOf (t.words seg.toNat) data
    let refused := fun (st : Status) (detail : Nat) =>
      exec (t.loadRow seg data) s = .next ⟨d.replied kindLoad ⟨st, detail, []⟩, s.pending⟩
    (s.dev.lct.lineState ≠ .idle → refused .wrongState 1) ∧
    (s.dev.lct.lineState = .idle → c.lock.locked = true → refused .locked 0) ∧
    (s.dev.lct.lineState = .idle → c.lock.locked = false → c.committing = true → refused .notNow 0) ∧
    (s.dev.lct.lineState = .idle → c.lock.locked = false → c.committing = false →
      (t.segments ≤ seg.toNat → refused .badSegment 0) ∧
      (seg.toNat < t.segments →
        (data.length ≠ 2 * t.words seg.toNat → refused .badFrame 0) ∧
        (data.length = 2 * t.words seg.toNat →
          (∀ detail, segmentRefusal t seg.toNat words = some detail → refused .badValue detail) ∧
          (segmentRefusal t seg.toNat words = none →
            let working := c.working.take (t.start seg.toNat) ++ words.map some ++
              c.working.drop (t.start seg.toNat + t.words seg.toNat)
            exec (t.loadRow seg data) s =
              .next ⟨Device.replied kindLoad ⟨.ok, 0, [t.code, seg] ++ bytesOf 4 (checkSum working).toNat⟩
                { d with ccu := { c with
                  working := working, segments := c.segments.set (t.segmentIndex seg.toNat) .loaded } }, s.pending⟩ ∧
            (∀ k w, words[k]? = some w → wordLegal (t.start seg.toNat + k + 1) w = true) ∧
            (c.working.length = 3207 → segmentWords t seg.toNat working = words.map some)))) ∧
      (seg.toNat < t.segments → data.length = 2 * t.words seg.toNat →
        let bad := fun k : Nat =>
          let w := fieldAt (2 * k) 2 data
          match t with
          | .widths => w < 500 ∨ 4000 < w
          | .mask => 2 < w
          | .conditioning => match k with
            | 0 => 1023 < w
            | 2 => w < 1 ∨ 4095 < w
            | 3 | 6 => 1 < w
            | 4 | 5 => 15 < w
            | _ => False
        let named := fun k : Nat => match t with
          | .widths => 128 * seg.toNat + k
          | .mask => 800 * seg.toNat + k
          | .conditioning => 256 * (k + 1)
        let pitch := fieldAt 4 2 data * (65536 * fieldAt 0 2 data + fieldAt 2 2 data)
        (∀ k < t.words seg.toNat, bad k → (∀ j < k, ¬ bad j) → segmentRefusal t seg.toNat words = some (named k)) ∧
        ((∀ k < t.words seg.toNat, ¬ bad k) →
          (t = .conditioning → pitch < 32768000 ∨ 1310720000 < pitch → segmentRefusal t seg.toNat words = some 768) ∧
          ((t = .conditioning → 32768000 ≤ pitch ∧ pitch ≤ 1310720000) → segmentRefusal t seg.toNat words = none))))

/-- LOAD_TERMS by the tests of R102 in their order; one that passes closes every FILLING pack with POLICY_CHANGE, P0 to P3 in turn, its
PACK frame placed while the report FIFO has room and the pack held in its close buffer otherwise, replaces the terms, raises the
generation, and answers it with the packs that were FILLING (R102 to R107, R145, R147, R150). BAD_VALUE names the first field out of
range in the order of the checks (R97, R98, R103, R209), else the resolution of a refused combination, else the pack target of the
first class that differs from a lower one of its slot (R104; section 5.8, attempt 3, has both and is answered with the resolution). -/
def Obligations.TermsLoadReplacesTermsAndClosesPacks : Prop :=
  ∀ (seg : Byte) (data : List Byte) (s : State), s.dev.ReadyFor → s.dev.pku.slots.length = 4 →
    let d := s.dev.heard
    let refused := fun (st : Status) (detail : Nat) =>
      exec (.loadTerms seg data) s = .next ⟨d.replied kindLoad ⟨st, detail, []⟩, s.pending⟩
    (seg ≠ 0 → refused .badSegment 0) ∧
    (seg = 0 → data.length ≠ 110 → refused .badFrame 0) ∧
    (seg = 0 → data.length = 110 →
      (∀ detail, termsRefusal data = some detail → refused .badValue detail) ∧
      (termsRefusal data = none →
        ((∃ n, (s.dev.slot n).acc ≠ none ∧ (s.dev.slot n).buf ≠ none) → refused .notNow 0) ∧
        ((∀ n, (s.dev.slot n).acc = none ∨ (s.dev.slot n).buf = none) →
          let close := fun (e : Device) (n : Fin 4) =>
            match (s.dev.slot n).acc with
            | none => e
            | some p =>
              let closed : ClosedPack := ⟨p, ⟨false, false, true⟩, s.dev.bpu.uptime⟩
              if e.reportRoom then Device.placeReport (packFrame n closed) (e.setSlot n ⟨none, none⟩)
              else e.setSlot n ⟨none, some closed⟩
          exec (.loadTerms seg data) s =
            .next ⟨Device.replied kindLoad ⟨.ok, 0, [3, 0] ++ bytesOf 4 (s.dev.hev.generation + 1).toNat ++
              [BitVec.ofNat 8 (bitsOf ([0, 1, 2, 3].map fun n : Fin 4 => (s.dev.slot n).acc.isSome))]⟩
              { ([0, 1, 2, 3] : List (Fin 4)).foldl close d with hev := { s.dev.hev with
                terms := some (termsAt data), generation := s.dev.hev.generation + 1 } }, s.pending⟩)) ∧
      (let at' := fun (o n : Nat) => fieldAt o n data
      let bad := fun x : Nat × Nat =>
        match x.1 with
        | 1 => 2 < at' 0 1
        | 2 => 3 < at' 1 1
        | 3 => 2 < at' 2 1
        | 7 => at' 9 1 < 1 ∨ 8 < at' 9 1
        | 8 => 6400000 < at' 10 4
        | 9 => 2 < at' 3 1
        | 10 => 302978 < at' (14 + 12 * x.2) 4
        | 11 => 302978 < at' (18 + 12 * x.2) 4
        | 12 => 15 < at' (22 + 12 * x.2) 1
        | 13 => 15 < at' (23 + 12 * x.2) 1
        | 14 => 3 < at' (24 + 12 * x.2) 1 ∧ at' (24 + 12 * x.2) 1 ≠ 255
        | 15 => at' (25 + 12 * x.2) 1 < 1 ∨ 99 < at' (25 + 12 * x.2) 1
        | _ => False
      let places := [1, 2, 3, 4, 5, 6, 7, 8, 9].map (fun p => (p, 0)) ++
        (List.range 8).flatMap fun k => [10, 11, 12, 13, 14, 15].map fun p => (p, k)
      let combined := (at' 0 1, at' 1 1) ∈ [(0, 0), (0, 1), (0, 2), (0, 3), (1, 0), (1, 2), (2, 2), (2, 3)]
      let differs := fun k : Nat => at' (24 + 12 * k) 1 ≠ 255 ∧
        ∃ j < k, at' (24 + 12 * j) 1 = at' (24 + 12 * k) 1 ∧ at' (25 + 12 * j) 1 ≠ at' (25 + 12 * k) 1
      (∀ front x back, places = front ++ x :: back → bad x → (∀ y ∈ front, ¬ bad y) →
        termsRefusal data = some (256 * x.1 + x.2)) ∧
      ((∀ x ∈ places, ¬ bad x) →
        (combined → (∀ k < 8, ¬ differs k) → termsRefusal data = none) ∧
        (¬ combined → termsRefusal data = some 512) ∧
        (combined → ∀ k < 8, differs k → (∀ j < k, ¬ differs j) → termsRefusal data = some (256 * 15 + k)))))

/-- LOAD_HEADS and LOAD_INPUTS by their tests in their order, BAD_VALUE naming the first field refused (R112, R113, R167, R168, R209;
for a zone in the wrong order either of its cells, log 9); a HEADS load puts each head in IDLE or DISABLED by its enable (R113); an
INPUTS load takes the raw levels as debounced, clears the latch of each input that is no enabled EVENT input and each HELD one that
has no active level, and forms both conditions anew, raising neither belt latch; an emergency stop condition that becomes ACTIVE
faults the line with what the heads do then, in a free order (log 6), and raises ESTOP, and one that ends ends the level of ESTOP
(R136, R163, R168). -/
def Obligations.HeadsAndInputsLoadsReplaceTheirTables : Prop :=
  ∀ (seg : Byte) (data : List Byte) (s : State), s.dev.ReadyFor →
    let d := s.dev.heard
    let refused := fun (c : Instr) (st : Status) (detail : Nat) =>
      exec c s = .next ⟨d.replied kindLoad ⟨st, detail, []⟩, s.pending⟩
    (s.dev.lct.lineState ≠ .idle → refused (.loadHeads seg data) .wrongState 1) ∧
    (s.dev.lct.lineState = .idle →
      (seg ≠ 0 → refused (.loadHeads seg data) .badSegment 0) ∧
      (seg = 0 → data.length ≠ 80 → refused (.loadHeads seg data) .badFrame 0) ∧
      (seg = 0 → data.length = 80 →
        (∀ detail, headsRefusal data = some detail → refused (.loadHeads seg data) .badValue detail) ∧
        (let at' := fun (n o w : Nat) => fieldAt (20 * n + o) w data
        let bad := fun x : Nat × Nat =>
          match x.2 with
          | 1 => 1 < at' x.1 0 1
          | 2 => 1599 < at' x.1 1 2
          | 3 => 1599 < at' x.1 3 2
          | 4 => at' x.1 3 2 < at' x.1 1 2
          | 5 => at' x.1 9 2 < 1
          | 6 => at' x.1 11 4 < 1 ∨ 16777215 < at' x.1 11 4
          | 7 => at' x.1 15 2 < 1 ∨ 1000 < at' x.1 15 2
          | 8 => at' x.1 17 1 < 1 ∨ 250 < at' x.1 17 1
          | 9 => 1000 < at' x.1 18 2
          | _ => False
        let places := (List.range 4).flatMap fun n => [1, 2, 3, 4, 5, 6, 7, 8, 9].map fun p => (n, p)
        (∀ front x back, places = front ++ x :: back → bad x → (∀ y ∈ front, ¬ bad y) →
          (x.2 ≠ 4 → headsRefusal data = some (256 * x.2 + x.1)) ∧
          (x.2 = 4 → headsRefusal data = some (256 * 2 + x.1) ∨ headsRefusal data = some (256 * 3 + x.1))) ∧
        ((∀ x ∈ places, ¬ bad x) → headsRefusal data = none)) ∧
        (headsRefusal data = none → ∃ v : Device,
          exec (.loadHeads seg data) s = .next ⟨v.replied kindLoad ⟨.ok, 0, [4, 0]⟩, s.pending⟩ ∧
          Touches [.sth] d v ∧ v.sth.table = some (headsAt data) ∧
          (s.dev.sth.heads.length = 4 → ∀ n : Fin 4, v.head n = { s.dev.head n with
            state := if (headEntryAt data n).enable then .idle else .disabled
            retryUsed := false, disablePending := false, strikeHigh := false })))) ∧
    (s.dev.lct.lineState ≠ .idle → s.dev.lct.lineState ≠ .paused → refused (.loadInputs seg data) .wrongState 1) ∧
    (s.dev.lct.lineState = .idle ∨ s.dev.lct.lineState = .paused →
      (seg ≠ 0 → refused (.loadInputs seg data) .badSegment 0) ∧
      (seg = 0 → data.length ≠ 40 → refused (.loadInputs seg data) .badFrame 0) ∧
      (seg = 0 → data.length = 40 →
        (∀ detail, inputsRefusal data = some detail → refused (.loadInputs seg data) .badValue detail) ∧
        (let bad := fun x : Nat × Nat =>
          match x.2 with
          | 1 => 3 < fieldAt (5 * x.1) 1 data
          | 2 | 3 | 4 => 1 < fieldAt (5 * x.1 + x.2 - 1) 1 data
          | _ => False
        let places := (List.range 8).flatMap fun n => [1, 2, 3, 4, 5].map fun p => (n, p)
        (∀ front x back, places = front ++ x :: back → bad x → (∀ y ∈ front, ¬ bad y) →
          inputsRefusal data = some (256 * x.2 + x.1)) ∧
        ((∀ x ∈ places, ¬ bad x) → inputsRefusal data = none)) ∧
        (inputsRefusal data = none → ∃ v : Device,
          exec (.loadInputs seg data) s =
            .next ⟨v.replied kindLoad ⟨.ok, 0, [5, 0, v.lct.lineState.code]⟩, s.pending⟩ ∧
          Touches [.lct, .sth, .hev, .rtk, .lnk, .dec, .draws] d v ∧ v.lct.table = inputsAt data ∧
          v.lct.inputs = s.dev.lct.inputs.map (fun i => ⟨i.raw, i.raw, none⟩) ∧
          v.lct.beltRun = v.lct.formBeltRun ∧ v.lct.estop = v.lct.formEstop ∧
          v.lct.lineState = (if v.lct.estop = true ∧ s.dev.lct.estop = false then .faulted else s.dev.lct.lineState) ∧
          v.lct.haltCause = (if v.lct.estop = true ∧ s.dev.lct.estop = false then .estop else s.dev.lct.haltCause) ∧
          v.lct.control = s.dev.lct.control ∧ v.lct.mask = s.dev.lct.mask ∧
          ∃ latches : List LatchState, latches.length = s.dev.lct.latches.length ∧
            (let taken : Lct := { s.dev.lct with
              table := inputsAt data
              inputs := s.dev.lct.inputs.map fun i => ⟨i.raw, i.raw, none⟩
              latches := latches }
            let l := { taken with beltRun := taken.formBeltRun }
            (∀ n : Fin 8,
              let entry := inputEntryAt data n
              let old := s.dev.lct.latches[3 + n.val]?
              (entry.enable = true → entry.function = .event →
                (old = some .held → entry.levelMode = false ∨ taken.inputActive n = false →
                  latches[3 + n.val]? = some .clear) ∧
                (old ≠ some .held ∨ (entry.levelMode = true ∧ taken.inputActive n = true) → latches[3 + n.val]? = old)) ∧
              (entry.enable = false ∨ entry.function ≠ .event → latches[3 + n.val]? = old.map fun _ => .clear)) ∧
            (∀ i, i < 3 ∨ 11 ≤ i → latches[i]? = s.dev.lct.latches[i]?) ∧
            (taken.formEstop = s.dev.lct.estop → v = { d with lct := l }) ∧
            (taken.formEstop = false → s.dev.lct.estop = true →
              v = { d with lct := { l with estop := false }.setLatch .estop LatchState.levelEnd }) ∧
            (taken.formEstop = true → s.dev.lct.estop = false → ∃ (order : List (Fin 4)) (draws : Nat),
              order.Perm [0, 1, 2, 3] ∧
              v = Device.raise { order.foldl (fun g m => g.faultHead m)
                { d with lct := { l with estop := true, lineState := .faulted, haltCause := .estop } } with
                  draws := draws } .estop)))))

/-- A TERMS, HEADS or INPUTS table that a LOAD accepts is read back byte for byte as it was loaded, and its fields are those
of the layout (R110, R114, R168, R210). -/
def Obligations.LoadedTablesReadBackAsLoaded : Prop :=
  (∀ b : List Byte, b.length = 110 → termsRefusal b = none → (termsAt b).bytes = b) ∧
  (∀ b : List Byte, b.length = 80 → headsRefusal b = none → (headsAt b).flatMap HeadEntry.bytes = b) ∧
  (∀ b : List Byte, b.length = 40 → inputsRefusal b = none → (inputsAt b).flatMap InputEntry.bytes = b) ∧
  (∀ b : List Byte,
    let t := termsAt b
    t.minHide = fieldAt 4 2 b ∧ t.smallHole = fieldAt 6 2 b ∧ t.interpolation = fieldAt 8 1 b ∧ t.setback = fieldAt 9 1 b ∧
      t.minAnchor = fieldAt 10 4 b ∧ t.classes.length = 8 ∧
      (fieldAt 0 1 b = 0 → t.unit = .ft2) ∧ (fieldAt 0 1 b = 1 → t.unit = .dm2) ∧ (fieldAt 0 1 b = 2 → t.unit = .m2) ∧
      (fieldAt 1 1 b = 0 → t.resolution = .whole) ∧ (fieldAt 1 1 b = 1 → t.resolution = .quarter) ∧
      (fieldAt 1 1 b = 2 → t.resolution = .tenth) ∧ (fieldAt 1 1 b = 3 → t.resolution = .hundredth) ∧
      (fieldAt 2 1 b = 0 → t.rounding = .down) ∧ (fieldAt 2 1 b = 1 → t.rounding = .nearest) ∧
      (fieldAt 2 1 b = 2 → t.rounding = .up) ∧
      (fieldAt 3 1 b = 0 → t.suspect = .skip) ∧ (fieldAt 3 1 b = 1 → t.suspect = .stamp) ∧
      (fieldAt 3 1 b = 2 → t.suspect = .stars) ∧
      ∀ (k : Nat) (c : TermClass), t.classes[k]? = some c →
        c.low = fieldAt (14 + 12 * k) 4 b ∧ c.high = fieldAt (18 + 12 * k) 4 b ∧ c.face = fieldAt (22 + 12 * k) 1 b ∧
          c.force = fieldAt (23 + 12 * k) 1 b ∧ c.target = fieldAt (25 + 12 * k) 1 b ∧
          (fieldAt (24 + 12 * k) 1 b = 255 → c.pack = none) ∧
          ∀ n : Fin 4, fieldAt (24 + 12 * k) 1 b = n.val → c.pack = some n) ∧
  (∀ (b : List Byte) (n : Nat), n < 4 → (headsAt b)[n]? = some ⟨fieldAt (20 * n) 1 b == 1, fieldAt (20 * n + 1) 2 b,
    fieldAt (20 * n + 3) 2 b, fieldAt (20 * n + 5) 4 b, fieldAt (20 * n + 9) 2 b, fieldAt (20 * n + 11) 4 b,
    fieldAt (20 * n + 15) 2 b, fieldAt (20 * n + 17) 1 b, fieldAt (20 * n + 18) 2 b⟩) ∧
  ∀ (b : List Byte) (n : Nat) (e : InputEntry), (inputsAt b)[n]? = some e →
    e.activeLow = (fieldAt (5 * n + 1) 1 b == 1) ∧ e.levelMode = (fieldAt (5 * n + 2) 1 b == 1) ∧
      e.enable = (fieldAt (5 * n + 3) 1 b == 1) ∧ e.debounce = fieldAt (5 * n + 4) 1 b ∧
      (fieldAt (5 * n) 1 b = 0 → e.function = .unused) ∧ (fieldAt (5 * n) 1 b = 1 → e.function = .beltRun) ∧
      (fieldAt (5 * n) 1 b = 2 → e.function = .estop) ∧ (fieldAt (5 * n) 1 b = 3 → e.function = .event)

/-- SET_FLAGS and CLEAR_FLAGS by the tests of R222 in their order, on the control word and on the event mask; a refused one
changes neither word; an unmasked PENDING latch is reported before the reply is built (R222, R223). -/
def Obligations.FlagRequestsChangeTheirWord : Prop :=
  ∀ (set : Bool) (selector : Byte) (mask : Word32) (s : State), s.dev.ReadyFor → selector ≠ 1 →
    let d := s.dev.heard
    let kind := if set then kindSetFlags else kindClearFlags
    let c := s.dev.lct.control
    let row := if set then Instr.setFlagsControl selector mask else .clearFlagsControl selector mask
    let maskRow := if set then Instr.setFlagsEventMask mask else .clearFlagsEventMask mask
    let refused := fun (i : Instr) (st : Status) (detail : Nat) =>
      exec i s = .next ⟨d.replied kind ⟨st, detail, []⟩, s.pending⟩
    let noField := fun i : Nat => (3 ≤ i ∧ i ≤ 7) ∨ 15 ≤ i ∨ (set = false ∧ 8 ≤ i ∧ i ≤ 14)
    let rate := (mask.extractLsb' 8 7).toNat
    let flag := fun (i : Nat) (old : Bool) => if mask.getLsbD i then set else old
    (selector ≠ 0 → refused row .badValue selector.toNat) ∧
    (∀ i < 32, noField i → mask.getLsbD i = true → (∀ j < i, noField j → mask.getLsbD j = false) → selector = 0 →
      refused row .badValue (256 * i)) ∧
    ((∀ i < 32, noField i → mask.getLsbD i = false) → selector = 0 → 1 ≤ c.rate → c.rate ≤ 64 →
      (set = true → 64 < rate → refused row .badValue 2048) ∧
      (set = false ∨ rate ≤ 64 →
        (flag 2 c.freeRun ≠ c.freeRun → s.dev.lct.lineState ≠ .idle → refused row .wrongState 1) ∧
        (flag 2 c.freeRun = c.freeRun ∨ s.dev.lct.lineState = .idle →
          let next : Control := ⟨flag 0 c.fwdLines, flag 1 c.autoResume, flag 2 c.freeRun,
            if set = true ∧ rate ≠ 0 then rate else c.rate⟩
          exec row s = .next ⟨Device.replied kind ⟨.ok, 0, 0 :: bytesOf 4 next.word⟩
            { d with lct := { s.dev.lct with control := next } }, s.pending⟩))) ∧
    (∀ i, 27 ≤ i → i < 32 → mask.getLsbD i = true → (∀ j, 27 ≤ j → j < i → mask.getLsbD j = false) →
      refused maskRow .badValue (256 * i + 1)) ∧
    ((∀ i, 27 ≤ i → i < 32 → mask.getLsbD i = false) → ∃ v w : Device,
      (∀ i, v.lct.mask[i]? = s.dev.lct.mask[i]?.map (flag i)) ∧ v = { d with lct := { s.dev.lct with mask := v.lct.mask } } ∧
        w = (if set then v else v.askEventPlace) ∧
        exec maskRow s = .next ⟨w.replied kind ⟨.ok, 0, 1 :: bytesOf 4 (bitsOf v.lct.mask)⟩, s.pending⟩)

/-- HEAD_ENABLE off and on, and CLEAR_STALL, with their refusals and replies (R126, R134, R135, R221). -/
def Obligations.HeadRequestsSwitchHeads : Prop :=
  ∀ (head on : Byte) (s : State), s.dev.ReadyFor → s.dev.sth.heads.length = 4 →
    let d := s.dev.heard
    (4 ≤ head.toNat →
      exec (.headEnableOff head) s = .next ⟨d.replied kindHeadEnable ⟨.badValue, 256 + head.toNat, []⟩, s.pending⟩ ∧
      exec (.headEnableOn head on) s = .next ⟨d.replied kindHeadEnable ⟨.badValue, 256 + head.toNat, []⟩, s.pending⟩ ∧
      exec (.clearStall head) s = .next ⟨d.replied kindClearStall ⟨.badValue, 256 + head.toNat, []⟩, s.pending⟩) ∧
    ∀ n : Fin 4, head.toNat = n.val →
      let h := s.dev.head n
      let answer := fun (state : HeadState) (cancelled : Nat) (pending : Bool) =>
        (⟨.ok, 0, [head, state.code] ++ bytesOf 1 cancelled ++ [indication pending]⟩ : Reply)
      (h.state = .disabled →
        exec (.headEnableOff head) s =
          .next ⟨d.replied kindHeadEnable (answer .disabled 0 h.disablePending), s.pending⟩) ∧
      (h.state = .striking →
        exec (.headEnableOff head) s =
          .next ⟨(d.setHead n { h with disablePending := true }).replied kindHeadEnable (answer .striking 0 true),
            s.pending⟩) ∧
      (h.state ≠ .disabled → h.state ≠ .striking → ∃ v : Device,
        exec (.headEnableOff head) s =
          .next ⟨v.replied kindHeadEnable (answer .disabled h.queue.length false), s.pending⟩ ∧
        v.sth = (d.setHead n { h with
          state := .disabled, queue := [], timer := none, retryUsed := false, disablePending := false }).sth ∧
        v.hev = (h.queue.foldl (fun e x => e.dispose x.slot .cancelled) d).hev ∧
        Touches [.sth, .hev, .rtk, .lnk, .dec] d v) ∧
      (on ≠ 1 →
        exec (.headEnableOn head on) s = .next ⟨d.replied kindHeadEnable ⟨.badValue, 512 + on.toNat, []⟩, s.pending⟩) ∧
      (on = 1 → (s.dev.headEntry n).enable = false →
        exec (.headEnableOn head on) s =
          .next ⟨d.replied kindHeadEnable ⟨.badValue, 768 + head.toNat, []⟩, s.pending⟩) ∧
      (on = 1 → (s.dev.headEntry n).enable = true →
        let g := if h.state = .disabled then { h with state := .idle } else { h with disablePending := false }
        exec (.headEnableOn head on) s =
          .next ⟨(d.setHead n g).replied kindHeadEnable (answer g.state 0 g.disablePending), s.pending⟩) ∧
      (h.state = .stalled →
        let v := (d.setHead n { h with state := .idle }).startSetting n false
        exec (.clearStall head) s =
          .next ⟨v.replied kindClearStall ⟨.ok, 0, [head, (v.head n).state.code]⟩, s.pending⟩) ∧
      (h.state ≠ .stalled →
        exec (.clearStall head) s = .next ⟨d.replied kindClearStall ⟨.ok, 0, [head, h.state.code]⟩, s.pending⟩)

/-- CLOSE_PACK closes a FILLING pack SHORT, or answers EMPTY, NOT_NOW or BAD_VALUE (R149, R221); LOCK_NEXT sets its flag in
the lock cell and answers both flags (R188); CLEAR_COUNTERS sets its ten counters to 0 and keeps all else (R225). -/
def Obligations.ClosePackLockNextAndClearCounters : Prop :=
  ∀ (slot : Byte) (s : State), s.dev.ReadyFor → s.dev.pku.slots.length = 4 →
    let d := s.dev.heard
    (4 ≤ slot.toNat →
      exec (.closePack slot) s = .next ⟨d.replied kindClosePack ⟨.badValue, 256 + slot.toNat, []⟩, s.pending⟩) ∧
    (∀ n : Fin 4, slot.toNat = n.val →
      ((s.dev.slot n).acc = none →
        exec (.closePack slot) s = .next ⟨d.replied kindClosePack ⟨.ok, 0, [slot, 0, 0, 0, 0, 0, 0, 0]⟩, s.pending⟩) ∧
      (∀ p, (s.dev.slot n).acc = some p → (s.dev.slot n).buf ≠ none →
        exec (.closePack slot) s = .next ⟨d.replied kindClosePack ⟨.notNow, 0, []⟩, s.pending⟩) ∧
      (∀ p, (s.dev.slot n).acc = some p → (s.dev.slot n).buf = none →
        let closed : ClosedPack := ⟨p, ⟨true, false, false⟩, s.dev.bpu.uptime⟩
        let v := if s.dev.reportRoom then Device.placeReport (packFrame n closed) (d.setSlot n ⟨none, none⟩)
          else d.setSlot n ⟨none, some closed⟩
        exec (.closePack slot) s =
          .next ⟨v.replied kindClosePack ⟨.ok, 0, [slot, 1] ++ bytesOf 4 p.number.toNat ++ bytesOf 2 p.hides⟩, s.pending⟩)) ∧
    exec .lockNext s =
      .next ⟨Device.replied kindLockNext ⟨.ok, 0, [if s.dev.ccu.lock.locked then 3 else 1]⟩ { d with ccu := { s.dev.ccu with
        store := { s.dev.ccu.store with lockCell := some ⟨true, s.dev.ccu.lock.locked⟩ } } }, s.pending⟩ ∧
    exec .clearCounters s =
      .next ⟨Device.replied kindClearCounters ⟨.ok, 0, []⟩ { d with
        lcn := { s.dev.lcn with missed := 0, stray := 0, malformed := 0 }
        rtk := { s.dev.rtk with linesProcessed := 0 }
        hev := { s.dev.hev with scraps := 0, discarded := 0 }
        lnk := { d.lnk with badFrames := 0, forwardDrops := 0, upstreamDrops := 0, incompleteLoads := 0 } }, s.pending⟩

/-- A request that waits for the tracker takes a reservation and waits while an entry is performed; the tracker between lines
serves it, oldest first, after a pending walk: the reservation becomes its reply, whether or not another request would find a reply
place (R47, R212, R214; log 15). FLUSH is performed in PAUSED with the queue empty (R216): every OPEN gap root of the previous line
is released as a bay, every OPEN leather root becomes CLOSED_WAIT with TRUNCATED and with EXHAUSTED when its open epoch differs
from the exhaustion count, and every CLOSED_WAIT entry is offered (R67). READ of REGIONS shows the entries named, each with its fields in their places (R69, R210). -/
def Obligations.WaitingRequestsAreServedBetweenLines : Prop :=
  (∀ (w : Waiting) (s : State), s.dev.ReadyFor →
    let row := match w with | .flush => Instr.flush | .lineReset => .lineReset | .readRegions seg => .readRegions seg
    let v := { s.dev.heard with
      dec := { s.dev.dec with reservations := s.dev.dec.reservations + 1 }
      rtk := { s.dev.rtk with waiting := s.dev.rtk.waiting ++ [w] } }
    (s.dev.rtk.work ≠ none → exec row s = .next ⟨v.askEventPlace, s.pending⟩) ∧
    (s.dev.rtk.work = none → exec row s = .next ⟨v.settle.askEventPlace, s.pending⟩) ∧
    (s.dev.rtk.work = none → s.dev.rtk.waiting = [] → s.dev.rtk.retryPending = false →
      let p := s.dev.heard.performWaiting w
      exec row s = .next ⟨((p.2.placeReply (p.1.message w.kind)).walkPending 65).askEventPlace, s.pending⟩)) ∧
  (∀ (w : Waiting) (rest : List Waiting) (s : State), s.dev.InService → s.dev.rtk.work = none →
    s.dev.rtk.waiting = w :: rest →
    let service := match w with
      | .flush => Instr.flushService | .lineReset => .lineResetService | .readRegions _ => .readRegionsService
    (s.dev.rtk.retryPending = true → exec service s = .next ⟨(s.dev.walkPending 65).serveOldest.askEventPlace, s.pending⟩) ∧
    (s.dev.rtk.retryPending = false →
      let p := Device.performWaiting w { s.dev with rtk := { s.dev.rtk with waiting := rest } }
      exec service s =
        .next ⟨(Device.placeReply (p.1.message w.kind)
          { p.2 with dec := { p.2.dec with reservations := p.2.dec.reservations - 1 } }).askEventPlace, s.pending⟩)) ∧
  (∀ r : Region, r.bytes.length = 56 ∧
    Shows r.bytes [(0, 1, if r.kind = .leather then 0 else 1),
      (1, 1, match r.state with | .free => 0 | .opened => 1 | .merged => 2 | .closedWait => 3), (2, 1, r.parent),
      (3, 1, bitsOf [r.flags.exhausted, r.flags.edge, r.flags.holeOverflow, r.flags.truncated, r.flags.overrange, r.openTop,
        r.anchor.isSome]), (4, 4, r.firstLine.toNat), (8, 4, r.lastLine.toNat), (12, 2, r.minCell), (14, 2, r.maxCell),
      (16, 8, r.area), (24, 6, r.born.toNat), (30, 4, r.epoch.toNat), (34, 1, r.holes.length), (35, 2, r.holeOverCount),
      (37, 2, r.interpolated), (55, 1, 0)] ∧
    (∀ a, r.anchor = some a →
      Shows r.bytes [(39, 4, a.line.toNat), (43, 4, a.width), (47, 2, a.cell), (49, 6, a.pos.toNat)]) ∧
    (r.anchor = none → Shows r.bytes [(39, 4, 0), (43, 4, 0), (47, 2, 0), (49, 6, 0)])) ∧
  ∀ (seg : Byte) (d : Device),
    (d.lct.lineState ≠ .paused → d.performWaiting .flush = (⟨.wrongState, 1, []⟩, d)) ∧
    (d.lct.lineState = .paused → d.lcn.queue ≠ [] → d.performWaiting .flush = (⟨.notNow, 0, []⟩, d)) ∧
    (d.lct.lineState = .paused → d.lcn.queue = [] → (d.performWaiting .flush).1 = ⟨.ok, 0, []⟩ ∧
      (d.performWaiting .flush).2.rtk.prev = ⟨[], []⟩ ∧
      Touches [.rtk, .hev, .sth, .pku, .lnk, .dec, .lct] d (d.performWaiting .flush).2 ∧
      (d.rtk.cur = ⟨[], []⟩ → d.rtk.table.length = 64 → ∃ (k : Rtk) (bays : List Nat),
        let bay := fun i : Nat => (d.rtk.region i).kind = .gap ∧ (d.rtk.region i).state = .opened ∧
          (d.rtk.region i).touched = false ∧ ∃ g ∈ d.rtk.prev.gaps, g.label = .entry i
        let closes := fun i : Nat => (d.rtk.region i).kind = .leather ∧ (d.rtk.region i).state = .opened ∧
          (d.rtk.region i).touched = false
        k = { d.rtk with table := k.table, stack := bays ++ d.rtk.stack, retryPending := false } ∧ bays.Nodup ∧
          (∀ i, i ∈ bays ↔ bay i) ∧
          (∀ i < 64,
            (bay i → k.region i = Region.cleared .gap i) ∧
            (closes i → k.region i = { d.rtk.region i with
              state := .closedWait
              ring := []
              flags := { (d.rtk.region i).flags with
                exhausted := (d.rtk.region i).flags.exhausted || (d.rtk.region i).epoch != d.rtk.exhaustion
                truncated := true } }) ∧
            (¬ bay i → ¬ closes i → k.region i = d.rtk.region i)) ∧
          (let offered := k.walkOrder.foldl Device.offer { d with rtk := k }
          (d.performWaiting .flush).2 = { offered with rtk := { offered.rtk with prev := ⟨[], []⟩ } }))) ∧
    (8 ≤ seg.toNat → d.performWaiting (.readRegions seg) = (⟨.badSegment, 0, []⟩, d)) ∧
    (seg.toNat < 8 → d.performWaiting (.readRegions seg) =
      (⟨.ok, 0, [8, seg] ++ ((d.rtk.table.drop (8 * seg.toNat)).take 8).flatMap Region.bytes⟩, d))

/-- LINE_RESET, when it is served: in IDLE or PAUSED every block is reset as its rule gives, and the reply carries the number
of records emptied; in RUNNING or FAULTED it is refused and changes nothing (R19, R40, R71, R96, R142, R154, R166, R188,
R192, R217). -/
def Obligations.LineResetResetsEveryBlock : Prop :=
  ∀ d : Device,
    (d.lct.lineState ≠ .idle → d.lct.lineState ≠ .paused → d.performWaiting .lineReset = (⟨.wrongState, 1, []⟩, d)) ∧
    (d.lct.lineState = .idle ∨ d.lct.lineState = .paused →
      let p := d.performWaiting .lineReset
      p.1 = ⟨.ok, 0, bytesOf 1 (d.hev.store.filter Option.isSome).length⟩ ∧
      Touches [.bpu, .lcn, .rtk, .hev, .sth, .pku, .lct, .ccu] d p.2 ∧
      p.2.bpu = { d.bpu with
        position := 0, mark := 0, direction := .forward, divider := if d.ccu.valid then d.ccu.ppl else 4095
        nextLine := 0, outstanding := [], pauseTimer := none } ∧
      p.2.lcn = { d.lcn with
        expected := 0, trailing := 0, overflow := 0, lastDeclared := ⟨0, 0⟩, queue := [], lastStatus := none } ∧
      p.2.rtk = ⟨(List.range 64).map (Region.cleared .leather), List.range 64, ⟨[], []⟩, none, ⟨[], []⟩, 0, false,
        d.rtk.linesProcessed, d.rtk.waiting, none⟩ ∧
      p.2.hev = { d.hev with
        store := List.replicate 24 none
        discarded := min (d.hev.discarded + (d.hev.store.filter Option.isSome).length) 65535 } ∧
      p.2.sth = { d.sth with heads := d.sth.heads.map fun h => { h with
        queue := [], timer := none, strikeHigh := false, retryUsed := false, disablePending := false
        state := if h.state = .disabled ∨ h.disablePending = true then .disabled else .idle } } ∧
      p.2.pku = { d.pku with slots := List.replicate 4 ⟨none, none⟩ } ∧
      p.2.lct = { d.lct with lineState := .idle } ∧
      p.2.ccu = (if d.ccu.committing then { d.ccu with promotionPending := true } else { d.ccu with
        store := { d.ccu.store with lockCell := some ⟨false, d.ccu.lock.locked || d.ccu.lock.lockNext⟩ }
        promotionPending := false }))

/-! ### Invariants that every step keeps -/

/-- State.reset is a supplied part in INIT with a blank store and nothing waiting (log 4), and every invariant holds there. -/
def Obligations.ResetIsTheFactoryPartAndMeetsTheInvariants : Prop :=
  State.reset.pending = [] ∧ State.reset.dev.powered = true ∧ State.reset.dev.lct.lineState = .init ∧
    State.reset.dev.ccu.store = ⟨List.replicate 3207 none, none, none, none⟩ ∧ State.reset.dev.draws = 0 ∧
    (∃ t, exec .powerOn State.reset = .next ⟨t, []⟩ ∧ State.reset.dev = { t with draws := 0 }) ∧
    let d := State.reset.dev
    d.bpu.markAhead ∧ d.bpu.outstandingInOrder ∧ d.lcn.queueInBounds ∧ d.rtk.betweenSteps ∧ d.LinesApart ∧ d.Sized ∧
      d.rtk.areasFit ∧ d.sth.strikesInStriking ∧ d.LinkInBounds ∧ d.latchesReported ∧ d.CountSealed ∧ d.SetsLegal ∧
      d.StoreInStage

/-- The high-water mark stays at the position or ahead of it by less than 2^47 (R7), and the outstanding-line list holds at
most 2 lines with consecutive numbers up to the next line number (R11). -/
def Obligations.StepsKeepTheMarkAheadAndTheLinesInOrder : Prop :=
  ∀ s t : State, s.dev.bpu.markAhead → s.dev.bpu.outstandingInOrder → step s = .next t →
    t.dev.bpu.markAhead ∧ t.dev.bpu.outstandingInOrder

/-- The line queue stays within 4 entries, with overflow fills only behind 255 trailing fills and a full queue (R24, R26, R28),
and the tracker stays between two of its steps, with something left of an entry under way (R46 to R48). The runs of the
previous line and of every line waiting or under way stay apart, as bridging leaves them (R32, R34, R46). -/
def Obligations.StepsKeepTheLineQueueInBounds : Prop :=
  (∀ s t : State, s.dev.lcn.queueInBounds → s.dev.rtk.betweenSteps → step s = .next t →
    t.dev.lcn.queueInBounds ∧ t.dev.rtk.betweenSteps) ∧
  (∀ s t : State, s.dev.rtk.betweenSteps → s.dev.LinesApart → step s = .next t → t.dev.LinesApart)

/-- Every table of the part keeps its size (R35, R41, R72, R98, R112, R143, R167, R171, R177, R179), and every area of the region
table stays within 64 bits (R41, R52, R55). -/
def Obligations.StepsKeepTheTableSizes : Prop :=
  (∀ s t : State, s.dev.Sized → step s = .next t → t.dev.Sized) ∧
  (∀ s t : State, s.dev.rtk.areasFit → step s = .next t → t.dev.rtk.areasFit)

/-- A strike line is high in STRIKING and in no other head state (R128), a stamp queue holds at most 8 entries (R115), and a head
that is SETTING, READY or STRIKING has a front entry (R115, R122). The spacings of the HEADS table stay at least 1 (R112), and the fire
positions of a stamp queue go on rising, where those that it holds after the step lie within 2^47 pulses, over which modular comparison
orders them (R115); of DISCARDED_FRAME for a byte at a time, each byte being an event of its own (log 18). -/
def Obligations.StepsKeepStrikeLinesInStriking : Prop :=
  (∀ s t : State, s.dev.sth.strikesInStriking → step s = .next t → t.dev.sth.strikesInStriking) ∧
  (∀ s t : State, s.dev.sth.spacingsLegal → step s = .next t → t.dev.sth.spacingsLegal) ∧
  ∀ s t : State, s.dev.sth.spacingsLegal → (∀ h ∈ s.dev.sth.heads, queueRises h.queue) →
    (∀ port bytes rest, s.pending = .discardedFrame port bytes :: rest → bytes.length ≤ 1) → step s = .next t →
    (∀ h ∈ t.dev.sth.heads, queueWithinHalf h.queue) → ∀ h ∈ t.dev.sth.heads, queueRises h.queue

/-- The FIFOs of the link stay within their capacities, an IDLE transmitter leaves nothing waiting, every reservation is a
waiting request's, and a request is owed only while the reply FIFO is full (R197, R198, R202, R203, R212 to R214); and each
UNMASKED PENDING latch has been reported, or the report FIFO is full (R173). -/
def Obligations.StepsKeepTheLinkInBoundsAndLatchesReported : Prop :=
  (∀ s t : State, s.dev.LinkInBounds → step s = .next t → t.dev.LinkInBounds) ∧
  (∀ s t : State, s.dev.latchesReported → step s = .next t → t.dev.latchesReported)

/-- The seals of the store hold the present audit count; no step lowers the count they hold. While the part runs the audit
counter rises by one at the successful end of a commit and changes at nothing else (R183, R187). While LOCKED is set the
verified set does not change, and no command but the end of INIT with the strap FITTED clears LOCKED (R188); this for a store at the
stage of its commit, which StepsKeepTheSetsLegal keeps. -/
def Obligations.StepsKeepTheAuditCountAndTheLockedSet : Prop :=
  ∀ s t : State, s.dev.CountSealed → step s = .next t →
    t.dev.CountSealed ∧ s.dev.ccu.store.auditCount ≤ t.dev.ccu.store.auditCount ∧
      (∀ c rest, s.pending = c :: rest → whileRunning c = true →
        let ends := c = .sealWriteComplete ∧ s.dev.InService ∧ s.dev.ccu.committing = true
        (ends → t.dev.ccu.audit = s.dev.ccu.audit + 1) ∧ (¬ ends → t.dev.ccu.audit = s.dev.ccu.audit)) ∧
      (s.dev.ccu.lock.locked = true → s.dev.StoreInStage →
        t.dev.ccu.store = { s.dev.ccu.store with lockCell := t.dev.ccu.store.lockCell } ∧
          (∀ c rest, s.pending = c :: rest →
            (whileRunning c = true → t.dev.ccu.active = s.dev.ccu.active ∧ t.dev.ccu.valid = s.dev.ccu.valid ∧
              t.dev.ccu.working = s.dev.ccu.working ∧ t.dev.ccu.segments = s.dev.ccu.segments) ∧
            ((∀ a b inputs, c ≠ .endOfInit a b true inputs) → t.dev.ccu.lock.locked = true)))

/-- An active set marked VALID holds legal words alone, so do the segments of the working copy that are not UNSET, the scan
divider stays at 1 to 4095 and the free-run rate at 1 to 64 (R2, R8, R9, R177 to R183). The store stands at the stage of a commit: at
rest with none in flight; else with its target seal blank, some word blank while it erases, and the words written while it writes
(R182, R184, R185; log 7). -/
def Obligations.StepsKeepTheSetsLegal : Prop :=
  (∀ s t : State, s.dev.Sized → s.dev.CountSealed → s.dev.SetsLegal → step s = .next t → t.dev.SetsLegal) ∧
  ∀ s t : State, s.dev.Sized → s.dev.CountSealed → s.dev.StoreInStage → step s = .next t → t.dev.StoreInStage
end

