-- ==== Sys2Proof/Laws/Bytes.lean ====
section
/-!
SUPPORT. Byte layouts: how long a field is, the number its bytes spell, where a field of a longer layout stands, and the length
of each group of the QUERY status block (R210).
-/

namespace Sys2Proof.Machine

@[simp] theorem bytesOf_length (n v : Nat) : (bytesOf n v).length = n := by
  induction n with
  | zero => rfl
  | succ n ih => simp [bytesOf, ih]

theorem natOf_append (a b : List Byte) : natOf (a ++ b) = natOf a * 256 ^ b.length + natOf b := by
  unfold natOf
  rw [List.foldl_append]
  generalize List.foldl (fun acc b => acc * 256 + BitVec.toNat b) 0 a = k
  induction b generalizing k with
  | nil => simp
  | cons x b ih =>
    simp only [List.foldl_cons, List.length_cons]
    rw [ih, ih (0 * 256 + x.toNat)]
    ring

/-- The number that a number's bytes spell, modulo their range. -/
theorem natOf_bytesOf (n v : Nat) : natOf (bytesOf n v) = v % 256 ^ n := by
  induction n with
  | zero => simp [bytesOf, natOf, Nat.mod_one]
  | succ n ih =>
    have e : bytesOf (n + 1) v = [BitVec.ofNat 8 (v / 256 ^ n)] ++ bytesOf n v := rfl
    rw [e, natOf_append, ih, bytesOf_length]
    have one : natOf [BitVec.ofNat 8 (v / 256 ^ n)] = v / 256 ^ n % 256 := by simp [natOf]
    rw [one, pow_succ, Nat.mod_mul, Nat.mul_comm, Nat.add_comm]

/-- The bytes of a number that n bytes spell are those bytes. -/
theorem bytesOf_natOf (b : List Byte) : bytesOf b.length (natOf b) = b := by
  induction b with
  | nil => rfl
  | cons x b ih =>
    have e : natOf (x :: b) = x.toNat * 256 ^ b.length + natOf b := by
      simpa [natOf] using natOf_append [x] b
    have low : ∀ (n v k : Nat), bytesOf n (k * 256 ^ n + v) = bytesOf n v := by
      intro n
      induction n with
      | zero => intro v k; rfl
      | succ n ihn =>
        intro v k
        simp only [bytesOf]
        rw [show k * 256 ^ (n + 1) + v = (k * 256) * 256 ^ n + v by ring, ihn]
        congr 1
        apply BitVec.eq_of_toNat_eq
        rw [BitVec.toNat_ofNat, BitVec.toNat_ofNat, Nat.add_comm,
          Nat.add_mul_div_right _ _ (Nat.pos_of_ne_zero (by positivity))]
        omega
    have bound : natOf b < 256 ^ b.length := by
      have := natOf_bytesOf b.length (natOf b)
      rw [ih] at this
      rw [this]
      exact Nat.mod_lt _ (by positivity)
    rw [List.length_cons, bytesOf, e, low, ih]
    congr 1
    rw [Nat.add_comm, Nat.add_mul_div_right _ _ (by positivity), Nat.div_eq_of_lt bound, Nat.zero_add]
    exact BitVec.eq_of_toNat_eq (by rw [BitVec.toNat_ofNat]; exact Nat.mod_eq_of_lt x.isLt)

/-- A field that stands behind a stretch of a layout. -/
theorem fieldAt_append (a b c : List Byte) : fieldAt a.length b.length (a ++ (b ++ c)) = natOf b := by simp [fieldAt]

/-- The lengths of the nine groups of the status block, in their order, and of the whole (R210). -/
theorem Device.statusBlock_lengths (d : Device) (h : d.ccu.segments.length = 16) :
    d.bpuGroup.length = 46 ∧ d.lcnGroup.length = 17 ∧ d.rtkGroup.length = 16 ∧ d.hevGroup.length = 16 ∧
      d.sthGroup.length = 53 ∧ d.pkuGroup.length = 68 ∧ d.lctGroup.length = 36 ∧ d.ccuGroup.length = 26 ∧
      d.lnkGroup.length = 14 ∧ d.statusBlock.length = 292 := by
  have bpu : d.bpuGroup.length = 46 := by
    simp only [Device.bpuGroup, List.length_append, bytesOf_length, List.length_cons, List.length_nil]
    cases d.bpu.outstanding[0]? <;> cases d.bpu.outstanding[1]? <;> simp [outstandingBytes, absentBytes]
  have lcn : d.lcnGroup.length = 17 := by simp [Device.lcnGroup]
  have rtk : d.rtkGroup.length = 16 := by
    simp only [Device.rtkGroup, List.length_append, bytesOf_length, List.length_cons, List.length_nil]
    cases d.rtk.prevLine <;> simp [absentBytes]
  have hev : d.hevGroup.length = 16 := by simp [Device.hevGroup]
  have head : ∀ n, (d.headGroup n).length = 13 := by
    intro n
    simp only [Device.headGroup, List.length_append, bytesOf_length, List.length_cons]
    cases (d.head n).queue <;> simp [absentBytes]
  have sth : d.sthGroup.length = 53 := by simp [Device.sthGroup, headNumbers, head]
  have opened : ∀ n p, (openPackBytes n p).length = 8 := by intro n p; cases p <;> simp [openPackBytes, absentBytes]
  have held : ∀ n p, (heldPackBytes n p).length = 8 := by intro n p; cases p <;> simp [heldPackBytes, absentBytes]
  have pku : d.pkuGroup.length = 68 := by simp [Device.pkuGroup, headNumbers, opened, held]
  have input : ∀ n, (d.inputGroup n).length = 2 := by
    intro n
    simp only [Device.inputGroup, List.length_append, bytesOf_length]
    cases (d.lct.input n).timer <;> simp [absentBytes]
  have lct : d.lctGroup.length = 36 := by simp [Device.lctGroup, inputNumbers, input]
  have ccu : d.ccuGroup.length = 26 := by
    simp only [Device.ccuGroup, List.length_append, bytesOf_length, List.length_cons, List.length_map, h]
    cases d.ccu.commitTimer <;> simp [absentBytes]
  have lnk : d.lnkGroup.length = 14 := by simp [Device.lnkGroup]
  refine ⟨bpu, lcn, rtk, hev, sth, pku, lct, ccu, lnk, ?_⟩
  simp only [Device.statusBlock, List.length_append, bpu, lcn, rtk, hev, sth, pku, lct, ccu, lnk]

end Sys2Proof.Machine
end

