-- ==== Sys2Proof/Laws/State.lean ====
section
/-!
SUPPORT. One lemma per part of the device per named update: what the update leaves there.
-/

namespace Sys2Proof.Machine

@[simp] theorem Device.raise_powered (n : Latch) (d : Device) : (d.raise n).powered = d.powered := rfl
@[simp] theorem Device.raise_bpu (n : Latch) (d : Device) : (d.raise n).bpu = d.bpu := rfl
@[simp] theorem Device.raise_lcn (n : Latch) (d : Device) : (d.raise n).lcn = d.lcn := rfl
@[simp] theorem Device.raise_rtk (n : Latch) (d : Device) : (d.raise n).rtk = d.rtk := rfl
@[simp] theorem Device.raise_hev (n : Latch) (d : Device) : (d.raise n).hev = d.hev := rfl
@[simp] theorem Device.raise_sth (n : Latch) (d : Device) : (d.raise n).sth = d.sth := rfl
@[simp] theorem Device.raise_pku (n : Latch) (d : Device) : (d.raise n).pku = d.pku := rfl
@[simp] theorem Device.raise_lct (n : Latch) (d : Device) : (d.raise n).lct = d.lct.raise n := rfl
@[simp] theorem Device.raise_ccu (n : Latch) (d : Device) : (d.raise n).ccu = d.ccu := rfl
@[simp] theorem Device.raise_lnk (n : Latch) (d : Device) : (d.raise n).lnk = d.lnk := rfl
@[simp] theorem Device.raise_dec (n : Latch) (d : Device) : (d.raise n).dec = d.dec := rfl
@[simp] theorem Device.raise_draws (n : Latch) (d : Device) : (d.raise n).draws = d.draws := rfl

@[simp] theorem Device.setHead_powered (n : Fin 4) (h : Head) (d : Device) : (d.setHead n h).powered = d.powered := rfl
@[simp] theorem Device.setHead_bpu (n : Fin 4) (h : Head) (d : Device) : (d.setHead n h).bpu = d.bpu := rfl
@[simp] theorem Device.setHead_lcn (n : Fin 4) (h : Head) (d : Device) : (d.setHead n h).lcn = d.lcn := rfl
@[simp] theorem Device.setHead_rtk (n : Fin 4) (h : Head) (d : Device) : (d.setHead n h).rtk = d.rtk := rfl
@[simp] theorem Device.setHead_hev (n : Fin 4) (h : Head) (d : Device) : (d.setHead n h).hev = d.hev := rfl
@[simp] theorem Device.setHead_sth (n : Fin 4) (h : Head) (d : Device) : (d.setHead n h).sth = { d.sth with heads := d.sth.heads.set n h } := rfl
@[simp] theorem Device.setHead_pku (n : Fin 4) (h : Head) (d : Device) : (d.setHead n h).pku = d.pku := rfl
@[simp] theorem Device.setHead_lct (n : Fin 4) (h : Head) (d : Device) : (d.setHead n h).lct = d.lct := rfl
@[simp] theorem Device.setHead_ccu (n : Fin 4) (h : Head) (d : Device) : (d.setHead n h).ccu = d.ccu := rfl
@[simp] theorem Device.setHead_lnk (n : Fin 4) (h : Head) (d : Device) : (d.setHead n h).lnk = d.lnk := rfl
@[simp] theorem Device.setHead_dec (n : Fin 4) (h : Head) (d : Device) : (d.setHead n h).dec = d.dec := rfl
@[simp] theorem Device.setHead_draws (n : Fin 4) (h : Head) (d : Device) : (d.setHead n h).draws = d.draws := rfl

@[simp] theorem Device.setSlot_powered (n : Fin 4) (p : PackSlot) (d : Device) : (d.setSlot n p).powered = d.powered := rfl
@[simp] theorem Device.setSlot_bpu (n : Fin 4) (p : PackSlot) (d : Device) : (d.setSlot n p).bpu = d.bpu := rfl
@[simp] theorem Device.setSlot_lcn (n : Fin 4) (p : PackSlot) (d : Device) : (d.setSlot n p).lcn = d.lcn := rfl
@[simp] theorem Device.setSlot_rtk (n : Fin 4) (p : PackSlot) (d : Device) : (d.setSlot n p).rtk = d.rtk := rfl
@[simp] theorem Device.setSlot_hev (n : Fin 4) (p : PackSlot) (d : Device) : (d.setSlot n p).hev = d.hev := rfl
@[simp] theorem Device.setSlot_sth (n : Fin 4) (p : PackSlot) (d : Device) : (d.setSlot n p).sth = d.sth := rfl
@[simp] theorem Device.setSlot_pku (n : Fin 4) (p : PackSlot) (d : Device) : (d.setSlot n p).pku = { d.pku with slots := d.pku.slots.set n p } := rfl
@[simp] theorem Device.setSlot_lct (n : Fin 4) (p : PackSlot) (d : Device) : (d.setSlot n p).lct = d.lct := rfl
@[simp] theorem Device.setSlot_ccu (n : Fin 4) (p : PackSlot) (d : Device) : (d.setSlot n p).ccu = d.ccu := rfl
@[simp] theorem Device.setSlot_lnk (n : Fin 4) (p : PackSlot) (d : Device) : (d.setSlot n p).lnk = d.lnk := rfl
@[simp] theorem Device.setSlot_dec (n : Fin 4) (p : PackSlot) (d : Device) : (d.setSlot n p).dec = d.dec := rfl
@[simp] theorem Device.setSlot_draws (n : Fin 4) (p : PackSlot) (d : Device) : (d.setSlot n p).draws = d.draws := rfl

@[simp] theorem Device.setRecord_powered (i : Nat) (r : Option HideRecord) (d : Device) : (d.setRecord i r).powered = d.powered := rfl
@[simp] theorem Device.setRecord_bpu (i : Nat) (r : Option HideRecord) (d : Device) : (d.setRecord i r).bpu = d.bpu := rfl
@[simp] theorem Device.setRecord_lcn (i : Nat) (r : Option HideRecord) (d : Device) : (d.setRecord i r).lcn = d.lcn := rfl
@[simp] theorem Device.setRecord_rtk (i : Nat) (r : Option HideRecord) (d : Device) : (d.setRecord i r).rtk = d.rtk := rfl
@[simp] theorem Device.setRecord_hev (i : Nat) (r : Option HideRecord) (d : Device) : (d.setRecord i r).hev = { d.hev with store := d.hev.store.set i r } := rfl
@[simp] theorem Device.setRecord_sth (i : Nat) (r : Option HideRecord) (d : Device) : (d.setRecord i r).sth = d.sth := rfl
@[simp] theorem Device.setRecord_pku (i : Nat) (r : Option HideRecord) (d : Device) : (d.setRecord i r).pku = d.pku := rfl
@[simp] theorem Device.setRecord_lct (i : Nat) (r : Option HideRecord) (d : Device) : (d.setRecord i r).lct = d.lct := rfl
@[simp] theorem Device.setRecord_ccu (i : Nat) (r : Option HideRecord) (d : Device) : (d.setRecord i r).ccu = d.ccu := rfl
@[simp] theorem Device.setRecord_lnk (i : Nat) (r : Option HideRecord) (d : Device) : (d.setRecord i r).lnk = d.lnk := rfl
@[simp] theorem Device.setRecord_dec (i : Nat) (r : Option HideRecord) (d : Device) : (d.setRecord i r).dec = d.dec := rfl
@[simp] theorem Device.setRecord_draws (i : Nat) (r : Option HideRecord) (d : Device) : (d.setRecord i r).draws = d.draws := rfl

@[simp] theorem Device.setAssembly_powered (a : Option Assembly) (d : Device) : (d.setAssembly a).powered = d.powered := rfl
@[simp] theorem Device.setAssembly_bpu (a : Option Assembly) (d : Device) : (d.setAssembly a).bpu = d.bpu := rfl
@[simp] theorem Device.setAssembly_lcn (a : Option Assembly) (d : Device) : (d.setAssembly a).lcn = d.lcn := rfl
@[simp] theorem Device.setAssembly_rtk (a : Option Assembly) (d : Device) : (d.setAssembly a).rtk = d.rtk := rfl
@[simp] theorem Device.setAssembly_hev (a : Option Assembly) (d : Device) : (d.setAssembly a).hev = d.hev := rfl
@[simp] theorem Device.setAssembly_sth (a : Option Assembly) (d : Device) : (d.setAssembly a).sth = d.sth := rfl
@[simp] theorem Device.setAssembly_pku (a : Option Assembly) (d : Device) : (d.setAssembly a).pku = d.pku := rfl
@[simp] theorem Device.setAssembly_lct (a : Option Assembly) (d : Device) : (d.setAssembly a).lct = d.lct := rfl
@[simp] theorem Device.setAssembly_ccu (a : Option Assembly) (d : Device) : (d.setAssembly a).ccu = d.ccu := rfl
@[simp] theorem Device.setAssembly_lnk (a : Option Assembly) (d : Device) : (d.setAssembly a).lnk = { d.lnk with assembly := a } := rfl
@[simp] theorem Device.setAssembly_dec (a : Option Assembly) (d : Device) : (d.setAssembly a).dec = d.dec := rfl
@[simp] theorem Device.setAssembly_draws (a : Option Assembly) (d : Device) : (d.setAssembly a).draws = d.draws := rfl

@[simp] theorem Device.setInput_powered (n : Fin 8) (i : InputLine) (d : Device) : (d.setInput n i).powered = d.powered := rfl
@[simp] theorem Device.setInput_bpu (n : Fin 8) (i : InputLine) (d : Device) : (d.setInput n i).bpu = d.bpu := rfl
@[simp] theorem Device.setInput_lcn (n : Fin 8) (i : InputLine) (d : Device) : (d.setInput n i).lcn = d.lcn := rfl
@[simp] theorem Device.setInput_rtk (n : Fin 8) (i : InputLine) (d : Device) : (d.setInput n i).rtk = d.rtk := rfl
@[simp] theorem Device.setInput_hev (n : Fin 8) (i : InputLine) (d : Device) : (d.setInput n i).hev = d.hev := rfl
@[simp] theorem Device.setInput_sth (n : Fin 8) (i : InputLine) (d : Device) : (d.setInput n i).sth = d.sth := rfl
@[simp] theorem Device.setInput_pku (n : Fin 8) (i : InputLine) (d : Device) : (d.setInput n i).pku = d.pku := rfl
@[simp] theorem Device.setInput_lct (n : Fin 8) (i : InputLine) (d : Device) : (d.setInput n i).lct = { d.lct with inputs := d.lct.inputs.set n i } := rfl
@[simp] theorem Device.setInput_ccu (n : Fin 8) (i : InputLine) (d : Device) : (d.setInput n i).ccu = d.ccu := rfl
@[simp] theorem Device.setInput_lnk (n : Fin 8) (i : InputLine) (d : Device) : (d.setInput n i).lnk = d.lnk := rfl
@[simp] theorem Device.setInput_dec (n : Fin 8) (i : InputLine) (d : Device) : (d.setInput n i).dec = d.dec := rfl
@[simp] theorem Device.setInput_draws (n : Fin 8) (i : InputLine) (d : Device) : (d.setInput n i).draws = d.draws := rfl

@[simp] theorem Device.heard_powered (d : Device) : (d.heard).powered = d.powered := rfl
@[simp] theorem Device.heard_bpu (d : Device) : (d.heard).bpu = d.bpu := rfl
@[simp] theorem Device.heard_lcn (d : Device) : (d.heard).lcn = d.lcn := rfl
@[simp] theorem Device.heard_rtk (d : Device) : (d.heard).rtk = d.rtk := rfl
@[simp] theorem Device.heard_hev (d : Device) : (d.heard).hev = d.hev := rfl
@[simp] theorem Device.heard_sth (d : Device) : (d.heard).sth = d.sth := rfl
@[simp] theorem Device.heard_pku (d : Device) : (d.heard).pku = d.pku := rfl
@[simp] theorem Device.heard_lct (d : Device) : (d.heard).lct = d.lct := rfl
@[simp] theorem Device.heard_ccu (d : Device) : (d.heard).ccu = d.ccu := rfl
@[simp] theorem Device.heard_lnk (d : Device) : (d.heard).lnk = { d.lnk with downReceiver := .hunting } := rfl
@[simp] theorem Device.heard_dec (d : Device) : (d.heard).dec = d.dec := rfl
@[simp] theorem Device.heard_draws (d : Device) : (d.heard).draws = d.draws := rfl

@[simp] theorem Device.heardUp_powered (d : Device) : (d.heardUp).powered = d.powered := rfl
@[simp] theorem Device.heardUp_bpu (d : Device) : (d.heardUp).bpu = d.bpu := rfl
@[simp] theorem Device.heardUp_lcn (d : Device) : (d.heardUp).lcn = d.lcn := rfl
@[simp] theorem Device.heardUp_rtk (d : Device) : (d.heardUp).rtk = d.rtk := rfl
@[simp] theorem Device.heardUp_hev (d : Device) : (d.heardUp).hev = d.hev := rfl
@[simp] theorem Device.heardUp_sth (d : Device) : (d.heardUp).sth = d.sth := rfl
@[simp] theorem Device.heardUp_pku (d : Device) : (d.heardUp).pku = d.pku := rfl
@[simp] theorem Device.heardUp_lct (d : Device) : (d.heardUp).lct = d.lct := rfl
@[simp] theorem Device.heardUp_ccu (d : Device) : (d.heardUp).ccu = d.ccu := rfl
@[simp] theorem Device.heardUp_lnk (d : Device) : (d.heardUp).lnk = { d.lnk with upReceiver := .hunting } := rfl
@[simp] theorem Device.heardUp_dec (d : Device) : (d.heardUp).dec = d.dec := rfl
@[simp] theorem Device.heardUp_draws (d : Device) : (d.heardUp).draws = d.draws := rfl

@[simp] theorem Device.loadDivider_powered (d : Device) : (d.loadDivider).powered = d.powered := rfl
@[simp] theorem Device.loadDivider_bpu (d : Device) : (d.loadDivider).bpu = { d.bpu with divider := d.ccu.dividerLoad } := rfl
@[simp] theorem Device.loadDivider_lcn (d : Device) : (d.loadDivider).lcn = d.lcn := rfl
@[simp] theorem Device.loadDivider_rtk (d : Device) : (d.loadDivider).rtk = d.rtk := rfl
@[simp] theorem Device.loadDivider_hev (d : Device) : (d.loadDivider).hev = d.hev := rfl
@[simp] theorem Device.loadDivider_sth (d : Device) : (d.loadDivider).sth = d.sth := rfl
@[simp] theorem Device.loadDivider_pku (d : Device) : (d.loadDivider).pku = d.pku := rfl
@[simp] theorem Device.loadDivider_lct (d : Device) : (d.loadDivider).lct = d.lct := rfl
@[simp] theorem Device.loadDivider_ccu (d : Device) : (d.loadDivider).ccu = d.ccu := rfl
@[simp] theorem Device.loadDivider_lnk (d : Device) : (d.loadDivider).lnk = d.lnk := rfl
@[simp] theorem Device.loadDivider_dec (d : Device) : (d.loadDivider).dec = d.dec := rfl
@[simp] theorem Device.loadDivider_draws (d : Device) : (d.loadDivider).draws = d.draws := rfl

@[simp] theorem Device.runLine_powered (d : Device) : (d.runLine).powered = d.powered := rfl
@[simp] theorem Device.runLine_bpu (d : Device) : (d.runLine).bpu = { d.bpu with pauseTimer := none } := rfl
@[simp] theorem Device.runLine_lcn (d : Device) : (d.runLine).lcn = d.lcn := rfl
@[simp] theorem Device.runLine_rtk (d : Device) : (d.runLine).rtk = d.rtk := rfl
@[simp] theorem Device.runLine_hev (d : Device) : (d.runLine).hev = d.hev := rfl
@[simp] theorem Device.runLine_sth (d : Device) : (d.runLine).sth = d.sth := rfl
@[simp] theorem Device.runLine_pku (d : Device) : (d.runLine).pku = d.pku := rfl
@[simp] theorem Device.runLine_lct (d : Device) : (d.runLine).lct = { d.lct with lineState := .running } := rfl
@[simp] theorem Device.runLine_ccu (d : Device) : (d.runLine).ccu = d.ccu := rfl
@[simp] theorem Device.runLine_lnk (d : Device) : (d.runLine).lnk = d.lnk := rfl
@[simp] theorem Device.runLine_dec (d : Device) : (d.runLine).dec = d.dec := rfl
@[simp] theorem Device.runLine_draws (d : Device) : (d.runLine).draws = d.draws := rfl

@[simp] theorem Device.countAbandoned_powered (d : Device) : (d.countAbandoned).powered = d.powered := rfl
@[simp] theorem Device.countAbandoned_bpu (d : Device) : (d.countAbandoned).bpu = d.bpu := rfl
@[simp] theorem Device.countAbandoned_lcn (d : Device) : (d.countAbandoned).lcn = d.lcn := rfl
@[simp] theorem Device.countAbandoned_rtk (d : Device) : (d.countAbandoned).rtk = d.rtk := rfl
@[simp] theorem Device.countAbandoned_hev (d : Device) : (d.countAbandoned).hev = d.hev := rfl
@[simp] theorem Device.countAbandoned_sth (d : Device) : (d.countAbandoned).sth = d.sth := rfl
@[simp] theorem Device.countAbandoned_pku (d : Device) : (d.countAbandoned).pku = d.pku := rfl
@[simp] theorem Device.countAbandoned_lct (d : Device) : (d.countAbandoned).lct = d.lct.raise .linkError := rfl
@[simp] theorem Device.countAbandoned_ccu (d : Device) : (d.countAbandoned).ccu = d.ccu := rfl
@[simp] theorem Device.countAbandoned_lnk (d : Device) : (d.countAbandoned).lnk = { d.lnk with incompleteLoads := sat16 d.lnk.incompleteLoads 1 } := rfl
@[simp] theorem Device.countAbandoned_dec (d : Device) : (d.countAbandoned).dec = d.dec := rfl
@[simp] theorem Device.countAbandoned_draws (d : Device) : (d.countAbandoned).draws = d.draws := rfl

@[simp] theorem Device.discardFrame_powered (d : Device) : (d.discardFrame).powered = d.powered := rfl
@[simp] theorem Device.discardFrame_bpu (d : Device) : (d.discardFrame).bpu = d.bpu := rfl
@[simp] theorem Device.discardFrame_lcn (d : Device) : (d.discardFrame).lcn = d.lcn := rfl
@[simp] theorem Device.discardFrame_rtk (d : Device) : (d.discardFrame).rtk = d.rtk := rfl
@[simp] theorem Device.discardFrame_hev (d : Device) : (d.discardFrame).hev = d.hev := rfl
@[simp] theorem Device.discardFrame_sth (d : Device) : (d.discardFrame).sth = d.sth := rfl
@[simp] theorem Device.discardFrame_pku (d : Device) : (d.discardFrame).pku = d.pku := rfl
@[simp] theorem Device.discardFrame_lct (d : Device) : (d.discardFrame).lct = d.lct.raise .linkError := rfl
@[simp] theorem Device.discardFrame_ccu (d : Device) : (d.discardFrame).ccu = d.ccu := rfl
@[simp] theorem Device.discardFrame_lnk (d : Device) : (d.discardFrame).lnk = { d.lnk with badFrames := sat16 d.lnk.badFrames 1 } := rfl
@[simp] theorem Device.discardFrame_dec (d : Device) : (d.discardFrame).dec = d.dec := rfl
@[simp] theorem Device.discardFrame_draws (d : Device) : (d.discardFrame).draws = d.draws := rfl

@[simp] theorem Device.startCommit_powered (d : Device) : (d.startCommit).powered = d.powered := rfl
@[simp] theorem Device.startCommit_bpu (d : Device) : (d.startCommit).bpu = d.bpu := rfl
@[simp] theorem Device.startCommit_lcn (d : Device) : (d.startCommit).lcn = d.lcn := rfl
@[simp] theorem Device.startCommit_rtk (d : Device) : (d.startCommit).rtk = d.rtk := rfl
@[simp] theorem Device.startCommit_hev (d : Device) : (d.startCommit).hev = d.hev := rfl
@[simp] theorem Device.startCommit_sth (d : Device) : (d.startCommit).sth = d.sth := rfl
@[simp] theorem Device.startCommit_pku (d : Device) : (d.startCommit).pku = d.pku := rfl
@[simp] theorem Device.startCommit_lct (d : Device) : (d.startCommit).lct = d.lct := rfl
@[simp] theorem Device.startCommit_ccu (d : Device) : (d.startCommit).ccu = { d.ccu with committing := true, commitTimer := Timer.start 400 false, store := d.ccu.store.setSeal d.ccu.target none }.eraseOn d.draws := rfl
@[simp] theorem Device.startCommit_lnk (d : Device) : (d.startCommit).lnk = d.lnk := rfl
@[simp] theorem Device.startCommit_dec (d : Device) : (d.startCommit).dec = d.dec := rfl
@[simp] theorem Device.startCommit_draws (d : Device) : (d.startCommit).draws = d.draws + 1 := rfl

@[simp] theorem Ccu.eraseOn_store (draws : Nat) (c : Ccu) : (c.eraseOn draws).store = { c.store with setArea := erasedArea draws c.store.setArea } := rfl
@[simp] theorem Ccu.eraseOn_stage (draws : Nat) (c : Ccu) : (c.eraseOn draws).stage = .erasing := rfl
@[simp] theorem Ccu.eraseOn_active (draws : Nat) (c : Ccu) : (c.eraseOn draws).active = c.active := rfl
@[simp] theorem Ccu.eraseOn_valid (draws : Nat) (c : Ccu) : (c.eraseOn draws).valid = c.valid := rfl
@[simp] theorem Ccu.eraseOn_prefixSums (draws : Nat) (c : Ccu) : (c.eraseOn draws).prefixSums = c.prefixSums := rfl
@[simp] theorem Ccu.eraseOn_working (draws : Nat) (c : Ccu) : (c.eraseOn draws).working = c.working := rfl
@[simp] theorem Ccu.eraseOn_segments (draws : Nat) (c : Ccu) : (c.eraseOn draws).segments = c.segments := rfl
@[simp] theorem Ccu.eraseOn_audit (draws : Nat) (c : Ccu) : (c.eraseOn draws).audit = c.audit := rfl
@[simp] theorem Ccu.eraseOn_committing (draws : Nat) (c : Ccu) : (c.eraseOn draws).committing = c.committing := rfl
@[simp] theorem Ccu.eraseOn_commitTimer (draws : Nat) (c : Ccu) : (c.eraseOn draws).commitTimer = c.commitTimer := rfl
@[simp] theorem Ccu.eraseOn_lastResult (draws : Nat) (c : Ccu) : (c.eraseOn draws).lastResult = c.lastResult := rfl
@[simp] theorem Ccu.eraseOn_promotionPending (draws : Nat) (c : Ccu) : (c.eraseOn draws).promotionPending = c.promotionPending := rfl
@[simp] theorem Ccu.eraseOn_strapFitted (draws : Nat) (c : Ccu) : (c.eraseOn draws).strapFitted = c.strapFitted := rfl

@[simp] theorem Ccu.writeOn_store (n : Nat) (c : Ccu) : (c.writeOn n).store = { c.store with setArea := c.writtenArea n } := rfl
@[simp] theorem Ccu.writeOn_stage (n : Nat) (c : Ccu) : (c.writeOn n).stage = .writing n := rfl
@[simp] theorem Ccu.writeOn_active (n : Nat) (c : Ccu) : (c.writeOn n).active = c.active := rfl
@[simp] theorem Ccu.writeOn_valid (n : Nat) (c : Ccu) : (c.writeOn n).valid = c.valid := rfl
@[simp] theorem Ccu.writeOn_prefixSums (n : Nat) (c : Ccu) : (c.writeOn n).prefixSums = c.prefixSums := rfl
@[simp] theorem Ccu.writeOn_working (n : Nat) (c : Ccu) : (c.writeOn n).working = c.working := rfl
@[simp] theorem Ccu.writeOn_segments (n : Nat) (c : Ccu) : (c.writeOn n).segments = c.segments := rfl
@[simp] theorem Ccu.writeOn_audit (n : Nat) (c : Ccu) : (c.writeOn n).audit = c.audit := rfl
@[simp] theorem Ccu.writeOn_committing (n : Nat) (c : Ccu) : (c.writeOn n).committing = c.committing := rfl
@[simp] theorem Ccu.writeOn_commitTimer (n : Nat) (c : Ccu) : (c.writeOn n).commitTimer = c.commitTimer := rfl
@[simp] theorem Ccu.writeOn_lastResult (n : Nat) (c : Ccu) : (c.writeOn n).lastResult = c.lastResult := rfl
@[simp] theorem Ccu.writeOn_promotionPending (n : Nat) (c : Ccu) : (c.writeOn n).promotionPending = c.promotionPending := rfl
@[simp] theorem Ccu.writeOn_strapFitted (n : Nat) (c : Ccu) : (c.writeOn n).strapFitted = c.strapFitted := rfl

@[simp] theorem Ccu.failCommit_store (c : Ccu) : (c.failCommit).store = c.store.setSeal c.target none := rfl
@[simp] theorem Ccu.failCommit_stage (c : Ccu) : (c.failCommit).stage = .resting := rfl
@[simp] theorem Ccu.failCommit_active (c : Ccu) : (c.failCommit).active = c.active := rfl
@[simp] theorem Ccu.failCommit_valid (c : Ccu) : (c.failCommit).valid = c.valid := rfl
@[simp] theorem Ccu.failCommit_prefixSums (c : Ccu) : (c.failCommit).prefixSums = c.prefixSums := rfl
@[simp] theorem Ccu.failCommit_working (c : Ccu) : (c.failCommit).working = c.working := rfl
@[simp] theorem Ccu.failCommit_segments (c : Ccu) : (c.failCommit).segments = c.segments := rfl
@[simp] theorem Ccu.failCommit_audit (c : Ccu) : (c.failCommit).audit = c.audit := rfl
@[simp] theorem Ccu.failCommit_committing (c : Ccu) : (c.failCommit).committing = false := rfl
@[simp] theorem Ccu.failCommit_commitTimer (c : Ccu) : (c.failCommit).commitTimer = none := rfl
@[simp] theorem Ccu.failCommit_lastResult (c : Ccu) : (c.failCommit).lastResult = .failed := rfl
@[simp] theorem Ccu.failCommit_promotionPending (c : Ccu) : (c.failCommit).promotionPending = c.promotionPending := rfl
@[simp] theorem Ccu.failCommit_strapFitted (c : Ccu) : (c.failCommit).strapFitted = c.strapFitted := rfl

@[simp] theorem Ccu.completeCommit_store (c : Ccu) : (c.completeCommit).store = c.sealedStore := rfl
@[simp] theorem Ccu.completeCommit_stage (c : Ccu) : (c.completeCommit).stage = .resting := rfl
@[simp] theorem Ccu.completeCommit_active (c : Ccu) : (c.completeCommit).active = c.working := rfl
@[simp] theorem Ccu.completeCommit_valid (c : Ccu) : (c.completeCommit).valid = true := rfl
@[simp] theorem Ccu.completeCommit_prefixSums (c : Ccu) : (c.completeCommit).prefixSums = prefixSumsOf c.working := rfl
@[simp] theorem Ccu.completeCommit_working (c : Ccu) : (c.completeCommit).working = c.working := rfl
@[simp] theorem Ccu.completeCommit_segments (c : Ccu) : (c.completeCommit).segments = List.replicate 16 .same := rfl
@[simp] theorem Ccu.completeCommit_audit (c : Ccu) : (c.completeCommit).audit = c.audit + 1 := rfl
@[simp] theorem Ccu.completeCommit_committing (c : Ccu) : (c.completeCommit).committing = false := rfl
@[simp] theorem Ccu.completeCommit_commitTimer (c : Ccu) : (c.completeCommit).commitTimer = none := rfl
@[simp] theorem Ccu.completeCommit_lastResult (c : Ccu) : (c.completeCommit).lastResult = .done := rfl
@[simp] theorem Ccu.completeCommit_promotionPending (c : Ccu) : (c.completeCommit).promotionPending = c.promotionPending := rfl
@[simp] theorem Ccu.completeCommit_strapFitted (c : Ccu) : (c.completeCommit).strapFitted = c.strapFitted := rfl

@[simp] theorem Ccu.promoteLock_store (c : Ccu) : (c.promoteLock).store = { c.store with lockCell := some ⟨false, c.lock.locked || c.lock.lockNext⟩ } := rfl
@[simp] theorem Ccu.promoteLock_stage (c : Ccu) : (c.promoteLock).stage = c.stage := rfl
@[simp] theorem Ccu.promoteLock_active (c : Ccu) : (c.promoteLock).active = c.active := rfl
@[simp] theorem Ccu.promoteLock_valid (c : Ccu) : (c.promoteLock).valid = c.valid := rfl
@[simp] theorem Ccu.promoteLock_prefixSums (c : Ccu) : (c.promoteLock).prefixSums = c.prefixSums := rfl
@[simp] theorem Ccu.promoteLock_working (c : Ccu) : (c.promoteLock).working = c.working := rfl
@[simp] theorem Ccu.promoteLock_segments (c : Ccu) : (c.promoteLock).segments = c.segments := rfl
@[simp] theorem Ccu.promoteLock_audit (c : Ccu) : (c.promoteLock).audit = c.audit := rfl
@[simp] theorem Ccu.promoteLock_committing (c : Ccu) : (c.promoteLock).committing = c.committing := rfl
@[simp] theorem Ccu.promoteLock_commitTimer (c : Ccu) : (c.promoteLock).commitTimer = c.commitTimer := rfl
@[simp] theorem Ccu.promoteLock_lastResult (c : Ccu) : (c.promoteLock).lastResult = c.lastResult := rfl
@[simp] theorem Ccu.promoteLock_promotionPending (c : Ccu) : (c.promoteLock).promotionPending = false := rfl
@[simp] theorem Ccu.promoteLock_strapFitted (c : Ccu) : (c.promoteLock).strapFitted = c.strapFitted := rfl

@[simp] theorem Device.reset_powered (store : CalStore) (draws : Nat) : (Device.reset store draws).powered = true := rfl
@[simp] theorem Device.reset_bpu (store : CalStore) (draws : Nat) : (Device.reset store draws).bpu = .reset := rfl
@[simp] theorem Device.reset_lcn (store : CalStore) (draws : Nat) : (Device.reset store draws).lcn = .reset := rfl
@[simp] theorem Device.reset_rtk (store : CalStore) (draws : Nat) : (Device.reset store draws).rtk = .reset := rfl
@[simp] theorem Device.reset_hev (store : CalStore) (draws : Nat) : (Device.reset store draws).hev = .reset := rfl
@[simp] theorem Device.reset_sth (store : CalStore) (draws : Nat) : (Device.reset store draws).sth = .reset := rfl
@[simp] theorem Device.reset_pku (store : CalStore) (draws : Nat) : (Device.reset store draws).pku = .reset := rfl
@[simp] theorem Device.reset_lct (store : CalStore) (draws : Nat) : (Device.reset store draws).lct = .reset := rfl
@[simp] theorem Device.reset_ccu (store : CalStore) (draws : Nat) : (Device.reset store draws).ccu = .reset store := rfl
@[simp] theorem Device.reset_lnk (store : CalStore) (draws : Nat) : (Device.reset store draws).lnk = .reset := rfl
@[simp] theorem Device.reset_dec (store : CalStore) (draws : Nat) : (Device.reset store draws).dec = .reset := rfl
@[simp] theorem Device.reset_draws (store : CalStore) (draws : Nat) : (Device.reset store draws).draws = draws := rfl
@[simp] theorem Ccu.reset_store (store : CalStore) : (Ccu.reset store).store = store := rfl

@[simp] theorem State.onDevice_dev (f : Device → Device) (s : State) : (s.onDevice f).dev = f s.dev := rfl
@[simp] theorem State.onDevice_pending (f : Device → Device) (s : State) : (s.onDevice f).pending = s.pending := rfl
@[simp] theorem Lct.raise_lineState (l : Lct) (n : Latch) : (l.raise n).lineState = l.lineState := rfl
@[simp] theorem Lct.raise_control (l : Lct) (n : Latch) : (l.raise n).control = l.control := rfl
@[simp] theorem Lct.raise_mask (l : Lct) (n : Latch) : (l.raise n).mask = l.mask := rfl
@[simp] theorem Lct.raise_haltCause (l : Lct) (n : Latch) : (l.raise n).haltCause = l.haltCause := rfl
@[simp] theorem Lct.raise_inputs (l : Lct) (n : Latch) : (l.raise n).inputs = l.inputs := rfl
@[simp] theorem Lct.raise_table (l : Lct) (n : Latch) : (l.raise n).table = l.table := rfl

theorem updateAt_length {α : Type} (f : α → α) : ∀ (i : Nat) (l : List α), (updateAt f i l).length = l.length
  | 0, [] => rfl
  | _ + 1, [] => rfl
  | 0, _ :: _ => rfl
  | i + 1, _ :: l => congrArg (· + 1) (updateAt_length f i l)

/-- A head written is the head read back (four heads). -/
theorem Device.head_setHead {n : Fin 4} {h : Head} {d : Device} (hl : d.sth.heads.length = 4) :
    (d.setHead n h).head n = h := by
  simp [Device.head, hl, n.isLt]

/-- The other heads are as before. -/
theorem Device.head_setHead_ne {n m : Fin 4} {h : Head} {d : Device} (hn : n ≠ m) :
    (d.setHead n h).head m = d.head m := by
  have : n.val ≠ m.val := fun e => hn (Fin.ext e)
  simp [Device.head, List.getD, this]

@[simp] theorem Device.headEntry_setHead (n m : Fin 4) (h : Head) (d : Device) :
    (d.setHead n h).headEntry m = d.headEntry m := rfl

/-- A slot written is the slot read back (four slots). -/
theorem Device.slot_setSlot {n : Fin 4} {p : PackSlot} {d : Device} (hl : d.pku.slots.length = 4) :
    (d.setSlot n p).slot n = p := by
  simp [Device.slot, hl, n.isLt]

end Sys2Proof.Machine
end

