-- ==== Sys2Proof/Laws/Calibration.lean ====
section
/-!
SUPPORT. The calibration store (chapter 9): the stages of a commit, and what a loss of power or the reset pin finds.
-/

namespace Sys2Proof.Machine

/-! ### The erase (R182, stage 1) -/

theorem eraseFrom_length (draws : Nat) : ∀ (position : Nat) (l : List (Option Nat)),
    (eraseFrom draws position l).length = l.length
  | _, [] => rfl
  | position, _ :: l => congrArg (· + 1) (eraseFrom_length draws (position + 1) l)

/-- A word under the erase is blank or as it was. -/
theorem eraseFrom_word (draws : Nat) : ∀ (position : Nat) (l : List (Option Nat)) (i : Nat), i < l.length →
    (eraseFrom draws position l)[i]? = some none ∨ (eraseFrom draws position l)[i]? = l[i]?
  | _, [], _, h => absurd h (Nat.not_lt_zero _)
  | position, w :: l, 0, _ => by
    simp only [eraseFrom, List.getElem?_cons_zero]
    split <;> simp
  | position, _ :: l, i + 1, h => by
    simpa only [eraseFrom, List.getElem?_cons_succ] using
      eraseFrom_word draws (position + 1) l i (Nat.lt_of_succ_lt_succ h)

theorem erasedArea_length (draws : Nat) (l : List (Option Nat)) : (erasedArea draws l).length = l.length := by
  unfold erasedArea
  dsimp only
  split <;> simp [eraseFrom_length]

/-- A word of an area under the erase is blank or as it was. -/
theorem erasedArea_word (draws : Nat) (l : List (Option Nat)) (i : Nat) (h : i < l.length) :
    (erasedArea draws l)[i]? = some none ∨ (erasedArea draws l)[i]? = l[i]? := by
  unfold erasedArea
  dsimp only
  split
  · exact eraseFrom_word draws 1 l i h
  · left
    rw [List.getElem?_map, List.getElem?_eq_getElem (by rw [eraseFrom_length]; exact h)]
    rfl

/-- Some word of an area under the erase is blank. -/
theorem erasedArea_blank (draws : Nat) {l : List (Option Nat)} (h : l ≠ []) : none ∈ erasedArea draws l := by
  unfold erasedArea
  dsimp only
  split
  · rename_i hc
    obtain ⟨w, hw, hn⟩ := List.any_eq_true.1 hc
    cases w with
    | none => exact hw
    | some v => exact absurd hn (by simp)
  · have hne : eraseFrom draws 1 l ≠ [] := fun e => h (by
      have := eraseFrom_length draws 1 l
      rw [e] at this
      exact List.eq_nil_of_length_eq_zero this.symm)
    obtain ⟨a, m, e⟩ := List.exists_cons_of_ne_nil hne
    rw [e]
    simp

/-! ### The write (R182, stage 2) -/

theorem firstWords_length (n : Nat) (l : List (Option Nat)) : (firstWords n l).length = l.length := by
  simp [firstWords]
  omega

/-- The first words stand and the rest are blank. -/
theorem firstWords_word (n : Nat) (l : List (Option Nat)) (i : Nat) (h : i < l.length) :
    (firstWords n l)[i]? = if i < n then l[i]? else some none := by
  unfold firstWords
  by_cases hi : i < n
  · rw [List.getElem?_append_left (by simp; omega), if_pos hi, List.getElem?_take_of_lt hi]
  · rw [List.getElem?_append_right (by simp; omega), if_neg hi, List.getElem?_map]
    simp only [List.length_take, List.getElem?_drop]
    rw [List.getElem?_eq_getElem (by omega)]
    rfl

theorem firstWords_all (l : List (Option Nat)) : firstWords l.length l = l := by simp [firstWords]

/-- A set with a blank word matches no seal. -/
theorem wordsLegal_blank : ∀ (position : Nat) {l : List (Option Nat)}, none ∈ l → wordsLegal position l = false
  | _, [], h => absurd h List.not_mem_nil
  | _, none :: _, _ => rfl
  | position, some w :: l, h => by
    rw [wordsLegal, wordsLegal_blank (position + 1) (by simpa using h), Bool.and_false]

theorem blank_matches_no_seal {l : List (Option Nat)} (h : none ∈ l) (s : Option Seal) : matchesSeal l s = false := by
  cases s <;> simp [matchesSeal, wordsLegal_blank 1 h]

theorem firstWords_blank {n : Nat} {l : List (Option Nat)} (h : n < l.length) : none ∈ firstWords n l := by
  have := firstWords_word n l n h
  rw [if_neg (Nat.lt_irrefl n)] at this
  exact List.mem_of_getElem? this

theorem Ccu.writtenArea_length (n : Nat) (c : Ccu) : (c.writtenArea n).length = c.working.length := by
  unfold Ccu.writtenArea
  dsimp only
  split <;> exact firstWords_length _ _

/-- The area with words written matches neither seal of the store. -/
theorem Ccu.writtenArea_matches_no_seal (n : Nat) {c : Ccu} (h : c.working ≠ []) :
    matchesSeal (c.writtenArea n) c.store.seal0 = false ∧ matchesSeal (c.writtenArea n) c.store.seal1 = false := by
  have hl := List.length_pos_iff.2 h
  unfold Ccu.writtenArea
  dsimp only
  split
  · exact ⟨blank_matches_no_seal (firstWords_blank (by omega)) _, blank_matches_no_seal (firstWords_blank (by omega)) _⟩
  · rename_i hc
    simpa using hc

/-- Short of the last word, what is written is the first words of the working copy. -/
theorem Ccu.writtenArea_part {n : Nat} {c : Ccu} (h : n < c.working.length) : c.writtenArea n = firstWords n c.working := by
  unfold Ccu.writtenArea
  dsimp only
  rw [blank_matches_no_seal (firstWords_blank h), blank_matches_no_seal (firstWords_blank h)]
  rfl

/-! ### The stages (R182, R185) -/

/-- What the store does in a millisecond: at rest nothing; erasing, it erases on or has ended and written some words; writing, it has
written no fewer. -/
theorem Ccu.storeWorks_cases (draws : Nat) (c : Ccu) :
    (c.stage = .resting ∧ c.storeWorks draws = c) ∨ (c.stage = .erasing ∧ c.storeWorks draws = c.eraseOn draws) ∨
      (c.stage = .erasing ∧ ∃ n ≤ c.working.length, c.storeWorks draws = c.writeOn n) ∨
      ∃ n m, c.stage = .writing n ∧ n ≤ m ∧ (n ≤ c.working.length → m ≤ c.working.length) ∧
        c.storeWorks draws = c.writeOn m := by
  unfold Ccu.storeWorks
  split
  · rename_i h
    exact .inl ⟨h, rfl⟩
  · rename_i h
    split
    · exact .inr (.inr (.inl ⟨h, _, Nat.min_le_right _ _, rfl⟩))
    · exact .inr (.inl ⟨h, rfl⟩)
  · rename_i n h
    exact .inr (.inr (.inr ⟨n, _, h, Nat.le_max_left _ _, fun hn => Nat.max_le.2 ⟨hn, Nat.min_le_right _ _⟩, rfl⟩))

theorem Device.restart_store (d : Device) : d.restart.ccu.store = d.storeAfterCut := rfl

theorem Device.storeAfterCut_idle {d : Device} (h : d.ccu.committing = false) : d.storeAfterCut = d.ccu.store := by
  simp [Device.storeAfterCut, h]

/-- A cut short of the seal leaves the store where it stands. -/
theorem Device.storeAfterCut_short {d : Device} (h : d.ccu.committing = true)
    (hs : d.ccu.stage ≠ .writing d.ccu.working.length) : d.storeAfterCut = d.ccu.store.setSeal d.ccu.target none := by
  simp [Device.storeAfterCut, h, hs]

/-- A cut with every word written leaves the store where it stands, or with the seal written. -/
theorem Device.storeAfterCut_written {d : Device} (h : d.ccu.committing = true) :
    d.storeAfterCut = d.ccu.store.setSeal d.ccu.target none ∨ d.storeAfterCut = d.ccu.sealedStore := by
  unfold Device.storeAfterCut
  rw [if_pos h]
  split
  · exact .inr rfl
  · exact .inl rfl

end Sys2Proof.Machine
end

