-- ==== Sys2Proof/Laws/Events.lean ====
section
/-!
SUPPORT. What an event and a request come to: one lemma each for the shared operations that take commands.
-/

namespace Sys2Proof.Machine

theorem Device.InService.live {d : Device} (h : d.InService) : d.live = true := by
  simp [Device.live, h.powered, h.afterInit]

/-- An event in service: its effect, then the LCT's ask. -/
theorem State.event_next {s : State} (h : s.dev.InService) (f : Device → Device) :
    s.event f = .next { s with dev := (f s.dev).askEventPlace } := by
  simp [State.event, State.onDevice, Device.event, h.live]

theorem Device.ReadyFor.place_free {d : Device} (h : d.ReadyFor) : d.heard.noReplyPlace = false := by
  simp [Device.noReplyPlace, Device.replyFull, replyCapacity, h.notOwed]
  exact decide_eq_false (Nat.not_le.2 h.place)

/-- A request that is performed: its effect, then its reply, then the LCT's ask. -/
theorem State.request_next {s : State} (h : s.dev.ReadyFor) (kind : Byte) (f : Device → Reply × Device) :
    s.request kind f = .next { s with dev := (f s.dev.heard).2.replied kind (f s.dev.heard).1 } := by
  have e : Device.received .downstream (Device.answer kind f) s.dev =
      (f s.dev.heard).2.placeReply ((f s.dev.heard).1.message kind) := by
    show Device.answer kind f s.dev.heard = _
    simp [Device.answer, h.place_free]
  rw [State.request, State.event_next h.toInService, e]
  rfl

/-- A frame on a port, in service. -/
theorem State.received_next {s : State} (h : s.dev.InService) (f : Device → Device) :
    s.event (Device.received .downstream f) = .next { s with dev := (f s.dev.heard).askEventPlace } ∧
      s.event (Device.received .upstream f) = .next { s with dev := (f s.dev.heardUp).askEventPlace } :=
  ⟨State.event_next h _, State.event_next h _⟩

/-- Out of service an event has no effect (log 12). -/
theorem State.event_idle {s : State} (h : s.dev.live = false) (f : Device → Device) : s.event f = .next s := by
  simp [State.event, State.onDevice, Device.event, h]

/-- An event always answers a next state and leaves the queue alone. -/
theorem State.event_pending (s : State) (f : Device → Device) : ∃ t, s.event f = .next ⟨t, s.pending⟩ := ⟨_, rfl⟩

/-- One byte of a port is one event. -/
theorem exec_discardedFrame_byte (port : Port) (b : Byte) (s : State) :
    exec (.discardedFrame port [b]) s = s.event (Device.takeByte port b) := rfl

/-- Bytes of a port act one after another. -/
theorem exec_discardedFrame_append (port : Port) (front back : List Byte) (s : State) :
    ∃ t, exec (.discardedFrame port front) s = .next t ∧
      exec (.discardedFrame port (front ++ back)) s = exec (.discardedFrame port back) t :=
  ⟨s.onDevice (Device.takeBytes port front), rfl, by
    simp [exec, execDiscardedFrame, State.onDevice, Device.takeBytes, List.foldl_append]⟩

/-- A request of another kind than LOAD is what the decoder does with its message. -/
theorem exec_request {c : Instr} {kind : Byte} (h : requestKind c = some kind) (hl : kind ≠ kindLoad) (s : State) :
    exec c s = s.event (Device.received .downstream (Device.takeRequest c)) := by
  cases c
  case loadWidths => exact absurd (Option.some.inj h).symm hl
  case loadMask => exact absurd (Option.some.inj h).symm hl
  case loadConditioning => exact absurd (Option.some.inj h).symm hl
  case loadTerms => exact absurd (Option.some.inj h).symm hl
  case loadHeads => exact absurd (Option.some.inj h).symm hl
  case loadInputs => exact absurd (Option.some.inj h).symm hl
  case loadBadTable => exact absurd (Option.some.inj h).symm hl
  all_goals first
    | (cases h; done)
    | rfl

end Sys2Proof.Machine
end

