-- ==== Sys2Proof/Laws/Frame.lean ====
section
/-!
SUPPORT. Which parts of the device each shared operation can change: one lemma an operation, in the order of the model.
-/

namespace Sys2Proof.Machine

theorem Touches.refl (ps : List Block) (d : Device) : Touches ps d d := fun b _ => by cases b <;> rfl

theorem Touches.weaken {ps qs : List Block} {d t : Device} (h : Touches ps d t)
    (hs : (ps.all fun b => qs.contains b) = true) : Touches qs d t := fun b hb =>
  h b fun hm => hb (List.contains_iff_mem.1 (List.all_eq_true.1 hs b hm))

theorem Block.same_trans {b : Block} {d e t : Device} (h : b.same d e) (k : b.same e t) : b.same d t := by
  cases b <;> exact Eq.trans k h

theorem Touches.trans {ps : List Block} {d e t : Device} (h : Touches ps d e) (k : Touches ps e t) : Touches ps d t :=
  fun b hb => Block.same_trans (h b hb) (k b hb)

theorem Touches.comp {ps qs : List Block} {d e t : Device} (h : Touches ps d e) (k : Touches qs e t) :
    Touches (ps ++ qs) d t := fun b hb =>
  Block.same_trans (h b fun hm => hb (List.mem_append_left _ hm)) (k b fun hm => hb (List.mem_append_right _ hm))

theorem Touches.fold {α : Type} {ps : List Block} {f : Device → α → Device} (h : ∀ d a, Touches ps d (f d a)) :
    ∀ (l : List α) (d : Device), Touches ps d (l.foldl f d)
  | [], d => Touches.refl ps d
  | a :: l, d => (h d a).trans (Touches.fold h l (f d a))

theorem Touches.of_powered (d : Device) (x : Bool) : Touches [.powered] d { d with powered := x } := by
  intro b hb; cases b <;> first | rfl | exact absurd (by decide) hb

theorem Touches.of_bpu (d : Device) (x : Bpu) : Touches [.bpu] d { d with bpu := x } := by
  intro b hb; cases b <;> first | rfl | exact absurd (by decide) hb

theorem Touches.of_lcn (d : Device) (x : Lcn) : Touches [.lcn] d { d with lcn := x } := by
  intro b hb; cases b <;> first | rfl | exact absurd (by decide) hb

theorem Touches.of_rtk (d : Device) (x : Rtk) : Touches [.rtk] d { d with rtk := x } := by
  intro b hb; cases b <;> first | rfl | exact absurd (by decide) hb

theorem Touches.of_hev (d : Device) (x : Hev) : Touches [.hev] d { d with hev := x } := by
  intro b hb; cases b <;> first | rfl | exact absurd (by decide) hb

theorem Touches.of_sth (d : Device) (x : Sth) : Touches [.sth] d { d with sth := x } := by
  intro b hb; cases b <;> first | rfl | exact absurd (by decide) hb

theorem Touches.of_pku (d : Device) (x : Pku) : Touches [.pku] d { d with pku := x } := by
  intro b hb; cases b <;> first | rfl | exact absurd (by decide) hb

theorem Touches.of_lct (d : Device) (x : Lct) : Touches [.lct] d { d with lct := x } := by
  intro b hb; cases b <;> first | rfl | exact absurd (by decide) hb

theorem Touches.of_ccu (d : Device) (x : Ccu) : Touches [.ccu] d { d with ccu := x } := by
  intro b hb; cases b <;> first | rfl | exact absurd (by decide) hb

theorem Touches.of_lnk (d : Device) (x : Lnk) : Touches [.lnk] d { d with lnk := x } := by
  intro b hb; cases b <;> first | rfl | exact absurd (by decide) hb

theorem Touches.of_dec (d : Device) (x : Decoder) : Touches [.dec] d { d with dec := x } := by
  intro b hb; cases b <;> first | rfl | exact absurd (by decide) hb

theorem Touches.of_draws (d : Device) (x : Nat) : Touches [.draws] d { d with draws := x } := by
  intro b hb; cases b <;> first | rfl | exact absurd (by decide) hb

theorem Device.raise_touches (n : Latch) (d : Device) :
    Touches [.lct] d (d.raise n) := by
  intro b hb; cases b <;> first | rfl | exact absurd (by decide) hb

theorem Device.setHead_touches (n : Fin 4) (h : Head) (d : Device) :
    Touches [.sth] d (d.setHead n h) := by
  intro b hb; cases b <;> first | rfl | exact absurd (by decide) hb

theorem Device.setSlot_touches (n : Fin 4) (p : PackSlot) (d : Device) :
    Touches [.pku] d (d.setSlot n p) := by
  intro b hb; cases b <;> first | rfl | exact absurd (by decide) hb

theorem Device.setAssembly_touches (a : Option Assembly) (d : Device) :
    Touches [.lnk] d (d.setAssembly a) := by
  intro b hb; cases b <;> first | rfl | exact absurd (by decide) hb

theorem Device.setReceiver_touches (p : Port) (r : Receiver) (d : Device) :
    Touches [.lnk] d (d.setReceiver p r) := by
  cases p <;> exact Touches.of_lnk d _

theorem Device.offerReplyPlace_touches (d : Device) :
    Touches [.lnk, .dec] d (d.offerReplyPlace) := by
  unfold Device.offerReplyPlace
  split
  · exact Touches.refl _ d
  · intro b hb; cases b <;> first | rfl | exact absurd (by decide) hb

theorem Device.sendReplyPart_touches (e : ReplyEntry) (rest : List ReplyEntry) (d : Device) :
    Touches [.lnk, .dec] d (d.sendReplyPart e rest) := by
  unfold Device.sendReplyPart
  split
  · exact ((Touches.of_lnk d _).comp (Device.offerReplyPlace_touches _)).weaken rfl
  · exact (Touches.of_lnk d _).weaken rfl

theorem Device.sendNext_touches (d : Device) :
    Touches [.lnk, .dec] d (d.sendNext) := by
  unfold Device.sendNext
  repeat' split
  · exact Device.sendReplyPart_touches _ _ d
  all_goals exact (Touches.of_lnk d _).weaken rfl

theorem Device.wakeTx_touches (d : Device) :
    Touches [.lnk, .dec] d (d.wakeTx) := by
  unfold Device.wakeTx
  split
  · exact Device.sendNext_touches d
  · exact Touches.refl _ d

theorem Device.placeReply_touches (m : List Byte) (d : Device) :
    Touches [.lnk, .dec] d (d.placeReply m) := by
  exact ((Touches.of_lnk d _).comp (Device.wakeTx_touches _)).weaken rfl

theorem Device.placeReport_touches (f : Frame) (d : Device) :
    Touches [.lnk, .dec] d (d.placeReport f) := by
  unfold Device.placeReport
  split
  · exact ((Touches.of_lnk d _).comp (Device.wakeTx_touches _)).weaken rfl
  · exact Touches.refl _ d

theorem Device.forwardDown_touches (f : Frame) (d : Device) :
    Touches [.lnk, .dec, .lct] d (d.forwardDown f) := by
  unfold Device.forwardDown
  split
  · exact ((Touches.of_lnk d _).comp (Device.wakeTx_touches _)).weaken rfl
  · exact ((Touches.of_lnk d _).comp (Device.raise_touches _ _)).weaken rfl

theorem Device.forwardUp_touches (f : Frame) (d : Device) :
    Touches [.lnk, .lct] d (d.forwardUp f) := by
  unfold Device.forwardUp
  repeat' split
  all_goals first
    | exact (Touches.of_lnk d _).weaken rfl
    | exact ((Touches.of_lnk d _).comp (Device.raise_touches _ _)).weaken rfl

theorem Device.endUpFrame_touches (d : Device) :
    Touches [.lnk] d (d.endUpFrame) := by
  unfold Device.endUpFrame
  repeat' split
  all_goals first
    | exact Touches.refl _ d
    | exact Touches.of_lnk d _

theorem Device.discardFrame_touches (d : Device) :
    Touches [.lnk, .lct] d (d.discardFrame) := by
  exact ((Touches.of_lnk d _).comp (Device.raise_touches _ _)).weaken rfl

theorem Device.countAbandoned_touches (d : Device) :
    Touches [.lnk, .lct] d (d.countAbandoned) := by
  exact ((Touches.of_lnk d _).comp (Device.raise_touches _ _)).weaken rfl

theorem Device.owe_touches (k : Byte) (d : Device) :
    Touches [.dec, .lct] d (d.owe k) := by
  unfold Device.owe
  split
  · exact (Touches.of_dec d _).weaken rfl
  · exact (Device.raise_touches _ d).weaken rfl

theorem Device.askPackPlace_touches (n : Fin 4) (d : Device) :
    Touches [.pku, .lnk, .dec] d (d.askPackPlace n) := by
  unfold Device.askPackPlace
  repeat' split
  · exact ((Device.setSlot_touches _ _ d).comp (Device.placeReport_touches _ _)).weaken rfl
  all_goals exact Touches.refl _ d

theorem Device.closePack_touches (n : Fin 4) (f : CloseFlags) (d : Device) :
    Touches [.pku, .lnk, .dec] d (d.closePack n f) := by
  unfold Device.closePack
  split
  · exact ((Device.setSlot_touches _ _ d).comp (Device.askPackPlace_touches _ _)).weaken rfl
  · exact Touches.refl _ d

theorem Device.reportPack_touches (n : Fin 4) (d : Device) :
    Touches [.pku, .lnk, .dec] d (d.reportPack n) := by
  have h (s f) : Touches [.pku, .lnk, .dec] d ((d.setSlot n s).placeReport f) :=
    ((Device.setSlot_touches n s d).comp (Device.placeReport_touches f _)).weaken rfl
  unfold Device.reportPack
  dsimp only
  repeat' split
  · exact Touches.refl _ d
  · exact h _ _
  · exact h _ _
  all_goals exact ((h _ _).comp (Device.closePack_touches _ _ _)).weaken rfl

theorem Device.closeAtTarget_touches (n : Fin 4) (d : Device) :
    Touches [.pku, .lnk, .dec] d (d.closeAtTarget n) := by
  unfold Device.closeAtTarget
  repeat' split
  all_goals first
    | exact Touches.refl _ d
    | exact Device.closePack_touches _ _ d

theorem Device.feedPack_touches (n : Fin 4) (f : PackFeed) (d : Device) :
    Touches [.pku, .lnk, .dec] d (d.feedPack n f) := by
  unfold Device.feedPack
  split
  · exact (((Device.setSlot_touches _ _ d).comp (Touches.of_pku _ _)).comp (Device.closeAtTarget_touches _ _)).weaken rfl
  · exact ((Device.setSlot_touches _ _ d).comp (Device.closeAtTarget_touches _ _)).weaken rfl

theorem Device.closeForTerms_touches (d : Device) :
    Touches [.pku, .lnk, .dec] d (d.closeForTerms) := by
  exact Touches.fold (fun d n => Device.closePack_touches n _ d) _ d

theorem Device.setRecord_touches (i : Nat) (r : Option HideRecord) (d : Device) :
    Touches [.hev] d (d.setRecord i r) := by
  intro b hb; cases b <;> first | rfl | exact absurd (by decide) hb

theorem Device.reportHide_touches (i : Nat) (r : HideRecord) (d : Device) :
    Touches [.hev, .rtk, .lnk, .dec] d (d.reportHide i r) := by
  exact (((Device.placeReport_touches _ d).comp (Device.setRecord_touches _ _ _)).comp (Touches.of_rtk _ _)).weaken rfl

theorem Device.askHidePlace_touches (i : Nat) (d : Device) :
    Touches [.hev, .rtk, .lnk, .dec] d (d.askHidePlace i) := by
  unfold Device.askHidePlace
  repeat' split
  all_goals first
    | exact Touches.refl _ d
    | exact Device.reportHide_touches _ _ d

theorem Device.dispose_touches (i : Nat) (o : Disposition) (d : Device) :
    Touches [.hev, .rtk, .lnk, .dec] d (d.dispose i o) := by
  unfold Device.dispose
  split
  · exact ((Device.setRecord_touches _ _ d).comp (Device.askHidePlace_touches _ _)).weaken rfl
  · exact Touches.refl _ d

theorem Device.offerReportPlace_touches (d : Device) :
    Touches [.hev, .rtk, .lnk, .dec, .pku] d (d.offerReportPlace) := by
  unfold Device.offerReportPlace
  repeat' split
  · exact (Device.reportHide_touches _ _ d).weaken rfl
  · exact (Device.reportPack_touches _ d).weaken rfl
  · exact Touches.refl _ d

theorem Device.askEventPlace_touches (d : Device) :
    Touches [.lct, .lnk, .dec] d (d.askEventPlace) := by
  unfold Device.askEventPlace
  split
  · exact ((Touches.of_lct d _).comp (Device.placeReport_touches _ _)).weaken rfl
  · exact Touches.refl _ d

theorem Device.endDownFrame_touches (d : Device) :
    Touches [.hev, .rtk, .lnk, .dec, .pku] d (d.endDownFrame) := by
  unfold Device.endDownFrame
  repeat' split
  · exact Touches.refl _ d
  · exact ((Device.sendNext_touches d).comp (Device.offerReportPlace_touches _)).weaken rfl
  · exact (Device.sendNext_touches d).weaken rfl

theorem Device.startSetting_touches (n : Fin 4) (t : Bool) (d : Device) :
    Touches [.sth] d (d.startSetting n t) := by
  unfold Device.startSetting
  dsimp only
  repeat' split
  all_goals first
    | exact Touches.refl _ d
    | exact Device.setHead_touches _ _ d

theorem Device.admitEntry_touches (n : Fin 4) (e : StampEntry) (d : Device) :
    Touches [.sth] d (d.admitEntry n e) := by
  exact ((Device.setHead_touches _ _ d).comp (Device.startSetting_touches _ _ _)).weaken rfl

theorem Device.decideEntry_touches (n : Fin 4) (e : StampEntry) (o : Disposition) (d : Device) :
    Touches [.sth, .hev, .rtk, .lnk, .dec] d (d.decideEntry n e o) := by
  exact ((Device.setHead_touches _ _ d).comp (Device.dispose_touches _ _ _)).weaken rfl

theorem Device.eachHead_touches {ps : List Block} {act : Fin 4 → Device → Device}
    (h : ∀ n d, Touches ps d (act n d)) (l : List (Fin 4)) (d : Device) :
    Touches (ps ++ [.draws]) d (d.eachHead l act) :=
  (Touches.fold (f := fun d n => act n d) (fun d n => h n d) (d.headOrder l) d).comp (Touches.of_draws _ _)

theorem Device.stall_touches (n : Fin 4) (e : StampEntry) (d : Device) :
    Touches [.sth, .hev, .rtk, .lnk, .dec, .lct] d (d.stall n e) := by
  exact (((Device.setHead_touches _ _ d).comp (Device.raise_touches _ _)).comp
    (Device.decideEntry_touches _ _ _ _)).weaken rfl

theorem Device.takeReadback_touches (n : Fin 4) (w : Word32) (d : Device) :
    Touches [.sth, .lct] d (d.takeReadback n w) := by
  unfold Device.takeReadback
  dsimp only
  split
  · exact ((Device.setHead_touches _ _ d).comp (Device.raise_touches _ _)).weaken rfl
  · exact (Device.setHead_touches _ _ d).weaken rfl

theorem Device.verify_touches (n : Fin 4) (e : StampEntry) (w : Word32) (d : Device) :
    Touches [.sth, .hev, .rtk, .lnk, .dec, .lct] d (d.verify n e w) := by
  unfold Device.verify
  dsimp only
  repeat' split
  all_goals first
    | exact Device.stall_touches _ _ d
    | exact (Device.setHead_touches _ _ d).weaken rfl

theorem Device.setTimeExpiry_touches (n : Fin 4) (w : Word32) (d : Device) :
    Touches [.sth, .hev, .rtk, .lnk, .dec, .lct] d (d.setTimeExpiry n w) := by
  unfold Device.setTimeExpiry
  dsimp only
  repeat' split
  · exact ((Device.takeReadback_touches _ _ d).comp (Device.verify_touches _ _ _ _)).weaken rfl
  all_goals exact Touches.refl _ d

theorem Device.cancelQueue_touches (n : Fin 4) (d : Device) :
    Touches [.sth, .hev, .rtk, .lnk, .dec] d (d.cancelQueue n) := by
  exact Touches.fold (fun d e => Device.decideEntry_touches n e _ d) _ d

theorem Device.disableHead_touches (n : Fin 4) (d : Device) :
    Touches [.sth, .hev, .rtk, .lnk, .dec] d (d.disableHead n) := by
  exact (((Device.setHead_touches _ _ d).comp (Device.cancelQueue_touches _ _)).comp
    (Device.setHead_touches _ _ _)).weaken rfl

theorem Device.headOff_touches (n : Fin 4) (d : Device) :
    Touches [.sth, .hev, .rtk, .lnk, .dec] d (d.headOff n) := by
  unfold Device.headOff
  dsimp only
  split
  all_goals first
    | exact Touches.refl _ d
    | exact (Device.setHead_touches _ _ d).weaken rfl
    | exact Device.disableHead_touches _ d

theorem Device.headOn_touches (n : Fin 4) (d : Device) :
    Touches [.sth] d (d.headOn n) := by
  unfold Device.headOn
  dsimp only
  repeat' split
  all_goals first
    | exact Touches.refl _ d
    | exact Device.setHead_touches _ _ d

theorem Device.clearStall_touches (n : Fin 4) (d : Device) :
    Touches [.sth] d (d.clearStall n) := by
  unfold Device.clearStall
  dsimp only
  split
  · exact ((Device.setHead_touches _ _ d).comp (Device.startSetting_touches _ _ _)).weaken rfl
  · exact Touches.refl _ d

theorem Device.endRecovery_touches (n : Fin 4) (d : Device) :
    Touches [.sth] d (d.endRecovery n) := by
  exact ((Device.setHead_touches _ _ d).comp (Device.startSetting_touches _ _ _)).weaken rfl

theorem Device.recoverTimeExpiry_touches (n : Fin 4) (d : Device) :
    Touches [.sth] d (d.recoverTimeExpiry n) := by
  unfold Device.recoverTimeExpiry
  split
  · exact Device.endRecovery_touches _ d
  · exact Touches.refl _ d

theorem Device.startRecovery_touches (n : Fin 4) (d : Device) :
    Touches [.sth] d (d.startRecovery n) := by
  unfold Device.startRecovery
  dsimp only
  split
  · exact Device.endRecovery_touches _ d
  · exact Device.setHead_touches _ _ d

theorem Device.strikeTimeExpiry_touches (n : Fin 4) (d : Device) :
    Touches [.sth, .hev, .rtk, .lnk, .dec] d (d.strikeTimeExpiry n) := by
  unfold Device.strikeTimeExpiry
  dsimp only
  repeat' split
  · exact (((Device.setHead_touches _ _ d).comp (Device.decideEntry_touches _ _ _ _)).comp
      (Device.disableHead_touches _ _)).weaken rfl
  · exact (((Device.setHead_touches _ _ d).comp (Device.decideEntry_touches _ _ _ _)).comp
      (Device.startRecovery_touches _ _)).weaken rfl
  all_goals exact Touches.refl _ d

theorem Device.strike_touches (n : Fin 4) (d : Device) :
    Touches [.sth] d (d.strike n) := by
  exact Device.setHead_touches _ _ d

theorem Device.missLate_touches (n : Fin 4) (e : StampEntry) (f : Bool) (d : Device) :
    Touches [.sth, .hev, .rtk, .lnk, .dec] d (d.missLate n e f) := by
  unfold Device.missLate
  dsimp only
  split
  · exact (((Device.setHead_touches _ _ d).comp (Device.decideEntry_touches _ _ _ _)).comp
      (Device.startSetting_touches _ _ _)).weaken rfl
  · exact ((Device.decideEntry_touches _ _ _ d).comp (Device.startSetting_touches _ _ _)).weaken rfl

theorem Device.cross_touches (n : Fin 4) (d : Device) :
    Touches [.sth, .hev, .rtk, .lnk, .dec] d (d.cross n) := by
  unfold Device.cross
  dsimp only
  repeat' split
  all_goals first
    | exact Touches.refl _ d
    | exact Device.decideEntry_touches _ _ _ d
    | exact (Device.strike_touches _ d).weaken rfl
    | exact Device.missLate_touches _ _ _ d

theorem Device.presentPosition_touches (p : Direction) (d : Device) :
    Touches [.sth, .hev, .rtk, .lnk, .dec, .draws] d (d.presentPosition p) := by
  unfold Device.presentPosition
  repeat' split
  all_goals first
    | exact Touches.refl _ d
    | exact (Device.eachHead_touches (fun n d => Device.cross_touches n d) _ d).weaken rfl

theorem Device.faultHead_touches (n : Fin 4) (d : Device) :
    Touches [.sth, .hev, .rtk, .lnk, .dec] d (d.faultHead n) := by
  unfold Device.faultHead
  dsimp only
  have h (x) (e : StampEntry) : Touches [.sth, .hev, .rtk, .lnk, .dec] d ((d.setHead n x).decideEntry n e .strikeAborted) :=
    ((Device.setHead_touches _ _ d).comp (Device.decideEntry_touches _ _ _ _)).weaken rfl
  repeat' split
  all_goals first
    | exact Touches.refl _ d
    | exact (Device.setHead_touches _ _ d).weaken rfl
    | exact h _ _
    | exact ((h _ _).comp (Device.disableHead_touches _ _)).weaken rfl
    | exact ((Device.setHead_touches _ _ d).comp (Device.disableHead_touches _ _)).weaken rfl

theorem Device.faultHeads_touches (d : Device) :
    Touches [.sth, .hev, .rtk, .lnk, .dec, .draws] d (d.faultHeads) := by
  unfold Device.faultHeads
  dsimp only
  have h (l : List (Fin 4)) : Touches [.sth, .hev, .rtk, .lnk, .dec] d (l.foldl (fun d n => d.faultHead n) d) :=
    Touches.fold (fun d n => Device.faultHead_touches n d) l d
  split
  · exact (h _).weaken rfl
  · exact ((h _).comp (Device.eachHead_touches (fun n d => Device.faultHead_touches n d) _ _)).weaken rfl

theorem Device.resumeHeads_touches (d : Device) :
    Touches [.sth] d (d.resumeHeads) := by
  exact Touches.fold (fun d n => Device.startSetting_touches n _ d) _ d

theorem Device.stopPauseIfEmpty_touches (d : Device) :
    Touches [.bpu] d (d.stopPauseIfEmpty) := by
  unfold Device.stopPauseIfEmpty
  split
  · exact Touches.of_bpu d _
  · exact Touches.refl _ d

theorem Device.pauseLine_touches (c : HaltCause) (t : Bool) (d : Device) :
    Touches [.bpu, .lct] d (d.pauseLine c t) := by
  unfold Device.pauseLine
  split
  · intro b hb; cases b <;> first | rfl | exact absurd (by decide) hb
  · exact Touches.refl _ d

theorem Device.runLine_touches (d : Device) :
    Touches [.bpu, .lct] d (d.runLine) := by
  intro b hb; cases b <;> first | rfl | exact absurd (by decide) hb

theorem Device.faultLine_touches (t : Bool) (d : Device) :
    Touches [.bpu, .lct, .sth, .hev, .rtk, .lnk, .dec, .draws] d (d.faultLine t) := by
  unfold Device.faultLine
  split
  · refine Touches.weaken (Touches.comp (ps := [.bpu, .lct]) ?_ (Device.faultHeads_touches _)) rfl
    intro b hb; cases b <;> first | rfl | exact absurd (by decide) hb
  · exact ((Touches.of_lct d _).comp (Device.faultHeads_touches _)).weaken rfl
  · exact ((Touches.of_lct d _).comp (Device.faultHeads_touches _)).weaken rfl
  all_goals exact Touches.refl _ d

theorem Device.leaveFault_touches (d : Device) :
    Touches [.lct, .sth] d (d.leaveFault) := by
  exact ((Touches.of_lct d _).comp (Device.resumeHeads_touches _)).weaken rfl

theorem Device.beltEdge_touches (t : Bool) (d : Device) :
    Touches [.bpu, .lct] d (d.beltEdge t) := by
  unfold Device.beltEdge
  dsimp only
  have h (x n) : Touches [.bpu, .lct] d (Device.raise { d with lct := x } n) :=
    ((Touches.of_lct d _).comp (Device.raise_touches _ _)).weaken rfl
  repeat' split
  · exact Touches.refl _ d
  · exact ((h _ _).comp (Device.runLine_touches _)).weaken rfl
  · exact h _ _
  · exact ((h _ _).comp (Device.pauseLine_touches _ _ _)).weaken rfl

theorem Device.estopEdge_touches (t : Bool) (d : Device) :
    Touches [.bpu, .lct, .sth, .hev, .rtk, .lnk, .dec, .draws] d (d.estopEdge t) := by
  unfold Device.estopEdge
  dsimp only
  repeat' split
  · exact Touches.refl _ d
  · exact (((Touches.of_lct d _).comp (Device.faultLine_touches _ _)).comp (Device.raise_touches _ _)).weaken rfl
  · exact ((Touches.of_lct d _).comp (Touches.of_lct _ _)).weaken rfl

theorem Device.setInput_touches (n : Fin 8) (i : InputLine) (d : Device) :
    Touches [.lct] d (d.setInput n i) := by
  intro b hb; cases b <;> first | rfl | exact absurd (by decide) hb

theorem Device.eventInputEdge_touches (n : Fin 8) (d : Device) :
    Touches [.lct] d (d.eventInputEdge n) := by
  unfold Device.eventInputEdge
  repeat' split
  · exact Device.raise_touches _ d
  · exact Touches.of_lct d _
  · exact Touches.refl _ d

theorem Device.debouncedEdge_touches (n : Fin 8) (t : Bool) (d : Device) :
    Touches [.bpu, .lct, .sth, .hev, .rtk, .lnk, .dec, .draws] d (d.debouncedEdge n t) := by
  unfold Device.debouncedEdge
  dsimp only
  repeat' split
  · exact (Device.setInput_touches _ _ d).weaken rfl
  · exact ((Device.setInput_touches _ _ d).comp (Device.beltEdge_touches _ _)).weaken rfl
  · exact ((Device.setInput_touches _ _ d).comp (Device.estopEdge_touches _ _)).weaken rfl
  · exact ((Device.setInput_touches _ _ d).comp (Device.eventInputEdge_touches _ _)).weaken rfl
  · exact (Device.setInput_touches _ _ d).weaken rfl

theorem Device.sampleInput_touches (n : Fin 8) (v : Bool) (d : Device) :
    Touches [.bpu, .lct, .sth, .hev, .rtk, .lnk, .dec, .draws] d (d.sampleInput n v) := by
  unfold Device.sampleInput
  dsimp only
  repeat' split
  · exact (Device.setInput_touches _ _ d).weaken rfl
  · exact (Device.setInput_touches _ _ d).weaken rfl
  · exact ((Device.setInput_touches _ _ d).comp (Device.debouncedEdge_touches _ _ _)).weaken rfl
  · exact (Device.setInput_touches _ _ d).weaken rfl

theorem Device.debounceExpiry_touches (n : Fin 8) (d : Device) :
    Touches [.bpu, .lct, .sth, .hev, .rtk, .lnk, .dec, .draws] d (d.debounceExpiry n) := by
  unfold Device.debounceExpiry
  split
  · exact Device.debouncedEdge_touches _ _ d
  · exact Touches.refl _ d

theorem Device.takeInputsTable_touches (t : List InputEntry) (d : Device) :
    Touches [.bpu, .lct, .sth, .hev, .rtk, .lnk, .dec, .draws] d (d.takeInputsTable t) := by
  unfold Device.takeInputsTable
  generalize inputNumbers.foldl Lct.inputLatchAfterLoad _ = l
  exact ((Touches.of_lct d _).comp (Device.estopEdge_touches _ _)).weaken rfl

theorem Device.lineLoss_touches (d : Device) :
    Touches [.bpu, .lct] d (d.lineLoss) := by
  exact ((Device.raise_touches _ d).comp (Device.pauseLine_touches _ _ _)).weaken rfl

theorem Device.placeFillEntry_touches (d : Device) :
    Touches [.lcn, .bpu, .lct] d (d.placeFillEntry) := by
  unfold Device.placeFillEntry
  dsimp only
  repeat' split
  · exact ((Touches.of_lcn d _).comp (Device.lineLoss_touches _)).weaken rfl
  · exact (Touches.of_lcn d _).weaken rfl
  · exact Touches.refl _ d

theorem Device.declareMissed_touches (o : Outstanding) (d : Device) :
    Touches [.lcn, .bpu, .lct] d (d.declareMissed o) := by
  unfold Device.declareMissed
  dsimp only
  have h (x) : Touches [.lcn, .bpu, .lct] d (Device.raise { d with lcn := x } .lineMissed) :=
    ((Touches.of_lcn d _).comp (Device.raise_touches _ _)).weaken rfl
  repeat' split
  · exact (((h _).comp (Touches.of_lcn _ _)).comp (Device.lineLoss_touches _)).weaken rfl
  · exact ((h _).comp (Touches.of_lcn _ _)).weaken rfl
  · exact (((h _).comp (Touches.of_lcn _ _)).comp (Device.placeFillEntry_touches _)).weaken rfl

theorem Device.presentLine_touches (n : Word32) (d : Device) :
    Touches [.lcn, .bpu, .lct] d ((d.presentLine n).2) := by
  unfold Device.presentLine
  split
  · exact Touches.refl _ d
  · exact (((Touches.of_bpu d _).comp (Touches.fold (fun d o => Device.declareMissed_touches o d) _ _)).comp
      ((Touches.of_bpu _ _).comp (Device.stopPauseIfEmpty_touches _))).weaken rfl

theorem Device.queueLine_touches (n : Word32) (p : Position) (s : BarStatus) (r : List Run) (d : Device) :
    Touches [.lcn, .bpu, .lct] d (d.queueLine n p s r) := by
  unfold Device.queueLine
  dsimp only
  split
  · exact (Touches.of_lcn d _).weaken rfl
  · exact Device.declareMissed_touches _ d

theorem Device.acceptOutstanding_touches (b : List Byte) (p : Position) (d : Device) :
    Touches [.lcn, .bpu, .lct] d (d.acceptOutstanding b p) := by
  unfold Device.acceptOutstanding
  dsimp only
  repeat' split
  · exact ((Touches.of_lcn d _).comp (Device.declareMissed_touches _ _)).weaken rfl
  · exact Device.declareMissed_touches _ d
  · exact Device.declareMissed_touches _ d
  · exact Device.queueLine_touches _ _ _ _ d

theorem Device.acceptLine_touches (b : List Byte) (d : Device) :
    Touches [.lcn, .bpu, .lct] d (d.acceptLine b) := by
  unfold Device.acceptLine
  have hp := Device.presentLine_touches (lineNumberOf b) d
  repeat' split
  · exact (Touches.of_lcn d _).weaken rfl
  · exact (Touches.of_lcn d _).weaken rfl
  · rename_i d' he
    rw [he] at hp
    exact (hp.comp (Touches.of_lcn d' _)).weaken rfl
  · rename_i d' he
    rw [he] at hp
    exact (hp.comp (Device.acceptOutstanding_touches _ _ d')).weaken rfl

theorem Device.trigger_touches (d : Device) :
    Touches [.lcn, .bpu, .lct] d (d.trigger) := by
  unfold Device.trigger
  dsimp only
  split
  · exact (((Touches.of_bpu d _).comp (Device.declareMissed_touches _ _)).comp (Touches.of_bpu _ _)).weaken rfl
  · exact (Touches.of_bpu d _).weaken rfl

theorem Device.countDivider_touches (d : Device) :
    Touches [.lcn, .bpu, .lct] d (d.countDivider) := by
  unfold Device.countDivider
  split
  · exact Device.trigger_touches d
  · exact (Touches.of_bpu d _).weaken rfl

theorem Device.pulse_touches (p : Direction) (d : Device) :
    Touches [.lcn, .bpu, .lct, .sth, .hev, .rtk, .lnk, .dec, .draws] d (d.pulse p) := by
  unfold Device.pulse
  cases p <;> dsimp only <;> split
  · exact (((Touches.of_bpu d _).comp (Device.countDivider_touches _)).comp (Device.presentPosition_touches _ _)).weaken rfl
  · exact ((Touches.of_bpu d _).comp (Device.presentPosition_touches _ _)).weaken rfl
  · exact (((Device.raise_touches _ d).comp (Touches.of_bpu _ _)).comp (Device.presentPosition_touches _ _)).weaken rfl
  · exact ((Touches.of_bpu d _).comp (Device.presentPosition_touches _ _)).weaken rfl

theorem Device.encoderSample_touches (a b : Bool) (d : Device) :
    Touches [.lcn, .bpu, .lct, .sth, .hev, .rtk, .lnk, .dec, .draws] d (d.encoderSample a b) := by
  unfold Device.encoderSample
  dsimp only
  repeat' split
  · exact (Touches.of_bpu d _).weaken rfl
  · exact ((Touches.of_bpu d _).comp (Device.pulse_touches _ _)).weaken rfl
  · exact (Touches.of_bpu d _).weaken rfl

theorem Device.freeRunPulse_touches (d : Device) :
    Touches [.lcn, .bpu, .lct, .sth, .hev, .rtk, .lnk, .dec, .draws] d (d.freeRunPulse) := by
  unfold Device.freeRunPulse
  split
  · exact ((Touches.of_bpu d _).comp (Device.pulse_touches _ _)).weaken rfl
  · exact Touches.refl _ d

theorem Device.retireOutstanding_touches (d : Device) :
    Touches [.lcn, .bpu, .lct] d (d.retireOutstanding) := by
  unfold Device.retireOutstanding
  dsimp only
  split
  · exact ((Touches.of_bpu d _).comp (Touches.fold (fun d o => Device.declareMissed_touches o d) _ _)).weaken rfl
  · exact Touches.refl _ d

theorem Device.askAdmission_touches (t : Terms) (s : Nat) (r : HideRecord) (a : Anchor) (n : Fin 4) (d : Device) :
    Touches [.hev, .sth] d (d.askAdmission t s r a n) := by
  unfold Device.askAdmission
  dsimp only
  split
  · exact (Device.setRecord_touches _ _ d).weaken rfl
  · exact ((Device.setRecord_touches _ _ d).comp (Device.admitEntry_touches _ _ _)).weaken rfl

theorem Device.stampDecision_touches (t : Terms) (s : Nat) (r : HideRecord) (d : Device) :
    Touches [.hev, .sth] d (d.stampDecision t s r) := by
  unfold Device.stampDecision
  repeat' split
  all_goals first
    | exact (Device.setRecord_touches _ _ d).weaken rfl
    | exact Device.askAdmission_touches _ _ _ _ _ d

theorem Device.feedHide_touches (t : Terms) (r : HideRecord) (d : Device) :
    Touches [.pku, .lnk, .dec] d (d.feedHide t r) := by
  unfold Device.feedHide
  repeat' split
  all_goals first
    | exact Touches.refl _ d
    | exact Device.feedPack_touches _ _ d

theorem Device.takeOffer_touches (t : Terms) (s : Nat) (o : Region) (d : Device) :
    Touches [.hev, .sth, .pku, .rtk, .lnk, .dec] d (d.takeOffer t s o) := by
  exact ((((Touches.of_hev d _).comp (Device.stampDecision_touches _ _ _ _)).comp
    (Device.feedHide_touches _ _ _)).comp (Device.askHidePlace_touches _ _)).weaken rfl

theorem Device.evaluate_touches (o : Region) (d : Device) :
    Touches [.hev, .sth, .pku, .rtk, .lnk, .dec, .lct] d ((d.evaluate o).2) := by
  unfold Device.evaluate
  repeat' split
  · exact Touches.refl _ d
  · exact (Touches.of_hev d _).weaken rfl
  · exact (Device.raise_touches _ d).weaken rfl
  · exact (Device.takeOffer_touches _ _ _ d).weaken rfl

theorem Device.offer_touches (i : Nat) (d : Device) :
    Touches [.hev, .sth, .pku, .rtk, .lnk, .dec, .lct] d (d.offer i) := by
  unfold Device.offer
  have h := Device.evaluate_touches (d.rtk.region i) d
  split
  · rename_i d' he
    rw [he] at h
    exact h
  · rename_i a d' he hne
    rw [hne] at h
    exact (h.comp (Touches.of_rtk d' _)).weaken rfl

theorem Device.offerWalk_touches (d : Device) :
    Touches [.hev, .sth, .pku, .rtk, .lnk, .dec, .lct] d (d.offerWalk) := by
  exact ((Touches.of_rtk d _).comp (Touches.fold (fun d i => Device.offer_touches i d) _ _)).weaken rfl

theorem Device.lineOperation_touches (c : LineContext) (r : List Run) (d : Device) :
    Touches [.hev, .sth, .pku, .rtk, .lnk, .dec, .lct] d (d.lineOperation c r) := by
  unfold Device.lineOperation
  dsimp only
  split
  · exact ((((Touches.of_rtk d _).comp (Device.raise_touches _ _)).comp (Device.offerWalk_touches _)).comp
      (Touches.of_rtk _ _)).weaken rfl
  · exact (((Touches.of_rtk d _).comp (Device.offerWalk_touches _)).comp (Touches.of_rtk _ _)).weaken rfl

theorem Device.performFill_touches (t : Terms) (l : Word32) (p : Position) (d : Device) :
    Touches [.hev, .sth, .pku, .rtk, .lnk, .dec, .lct] d (d.performFill t l p) := by
  exact Device.lineOperation_touches _ _ d

theorem Device.takeEntry_touches (d : Device) :
    Touches [.rtk, .lcn, .bpu, .lct] d (d.takeEntry) := by
  unfold Device.takeEntry
  split
  · exact Touches.refl _ d
  · refine Touches.weaken (Touches.comp (ps := [.rtk, .lcn]) ?_ (Device.placeFillEntry_touches _)) rfl
    intro b hb; cases b <;> first | rfl | exact absurd (by decide) hb

theorem Device.replayOne_touches (t : Terms) (w : Work) (d : Device) :
    Touches [.hev, .sth, .pku, .rtk, .lnk, .dec, .lct] d (d.replayOne t w) := by
  exact ((Device.performFill_touches _ _ _ d).comp (Touches.of_rtk _ _)).weaken rfl

theorem Device.replayAll_touches (t : Terms) : ∀ (n : Nat) (d : Device),
    Touches [.hev, .sth, .pku, .rtk, .lnk, .dec, .lct] d (Device.replayAll t n d)
  | 0, d => Touches.refl _ d
  | n + 1, d => by
    unfold Device.replayAll
    repeat' split
    · exact Touches.refl _ d
    · exact (Device.replayOne_touches _ _ d).trans (Device.replayAll_touches t n _)
    · exact Touches.refl _ d

theorem Device.performLine_touches (t : Terms) (d : Device) :
    Touches [.hev, .sth, .pku, .rtk, .lnk, .dec, .lct] d (d.performLine t) := by
  unfold Device.performLine
  repeat' split
  · exact ((Device.lineOperation_touches _ _ d).comp (Touches.of_rtk _ _)).weaken rfl
  all_goals exact Touches.refl _ d

theorem Device.flushRegions_touches (d : Device) :
    Touches [.hev, .sth, .pku, .rtk, .lnk, .dec, .lct] d (d.flushRegions) := by
  exact (((Touches.of_rtk d _).comp (Device.offerWalk_touches _)).comp (Touches.of_rtk _ _)).weaken rfl

theorem Device.loadDivider_touches (d : Device) :
    Touches [.bpu] d (d.loadDivider) := by
  intro b hb; cases b <;> first | rfl | exact absurd (by decide) hb

theorem Device.startCommit_touches (d : Device) :
    Touches [.ccu, .draws] d (d.startCommit) := by
  intro b hb; cases b <;> first | rfl | exact absurd (by decide) hb

theorem Device.loadCal_touches (t : CalTable) (s : Byte) (b : List Byte) (d : Device) :
    Touches [.ccu] d ((d.loadCal t s b).2) := by
  unfold Device.loadCal
  dsimp only
  repeat' split
  all_goals first
    | exact Touches.refl _ d
    | exact Touches.of_ccu d _

theorem Device.commitCal_touches (w : Word32) (d : Device) :
    Touches [.ccu, .draws] d ((d.commitCal w).2) := by
  unfold Device.commitCal
  repeat' split
  all_goals first
    | exact Touches.refl _ d
    | exact Device.startCommit_touches d

theorem Device.sealWriteComplete_touches (d : Device) :
    Touches [.ccu, .bpu] d (d.sealWriteComplete) := by
  unfold Device.sealWriteComplete
  split
  · exact (((Touches.of_ccu d _).comp (Device.loadDivider_touches _)).comp (Touches.of_ccu _ _)).weaken rfl
  · exact Touches.refl _ d

theorem Device.commitTimerExpiry_touches (d : Device) :
    Touches [.ccu] d (d.commitTimerExpiry) := by
  unfold Device.commitTimerExpiry
  split
  · exact Touches.of_ccu d _
  · exact Touches.refl _ d

theorem Device.requestStart_touches (d : Device) :
    Touches [.bpu, .lct] d (d.requestStart.2) := by
  unfold Device.requestStart
  repeat' split
  all_goals first
    | exact Touches.refl _ d
    | exact Device.runLine_touches d

theorem Device.stopLine_touches (d : Device) :
    Touches [.bpu, .lct] d (d.stopLine) := by
  unfold Device.stopLine
  split
  all_goals first
    | exact Touches.refl _ d
    | exact Device.pauseLine_touches _ _ d
    | exact (Touches.of_lct d _).weaken rfl

theorem Device.requestAckFault_touches (d : Device) :
    Touches [.lct, .sth] d (d.requestAckFault.2) := by
  unfold Device.requestAckFault
  repeat' split
  all_goals first
    | exact Touches.refl _ d
    | exact Device.leaveFault_touches d

theorem Device.takeTerms_touches (t : Terms) (d : Device) :
    Touches [.hev, .pku, .lnk, .dec] d (d.takeTerms t) := by
  exact ((Device.closeForTerms_touches d).comp (Touches.of_hev _ _)).weaken rfl

theorem Device.loadTerms_touches (s : Byte) (b : List Byte) (d : Device) :
    Touches [.hev, .pku, .lnk, .dec] d ((d.loadTerms s b).2) := by
  unfold Device.loadTerms
  repeat' split
  all_goals first
    | exact Touches.refl _ d
    | exact Device.takeTerms_touches _ d

theorem Device.loadHeads_touches (s : Byte) (b : List Byte) (d : Device) :
    Touches [.sth] d ((d.loadHeads s b).2) := by
  unfold Device.loadHeads
  repeat' split
  all_goals first
    | exact Touches.refl _ d
    | exact Touches.of_sth d _

theorem Device.loadInputs_touches (s : Byte) (b : List Byte) (d : Device) :
    Touches [.bpu, .lct, .sth, .hev, .rtk, .lnk, .dec, .draws] d ((d.loadInputs s b).2) := by
  have h := Device.takeInputsTable_touches (inputsAt b) d
  unfold Device.loadInputs
  generalize d.takeInputsTable (inputsAt b) = t at h ⊢
  repeat' split
  all_goals first
    | exact Touches.refl _ d
    | exact h

theorem Device.performLoad_touches (m : List Byte) (d : Device) :
    Touches [.ccu, .hev, .pku, .lnk, .dec, .sth, .bpu, .lct, .rtk, .draws] d ((d.performLoad m).2) := by
  unfold Device.performLoad
  dsimp only
  repeat' split
  all_goals first
    | exact (Device.loadCal_touches _ _ _ d).weaken rfl
    | exact (Device.loadTerms_touches _ _ d).weaken rfl
    | exact (Device.loadHeads_touches _ _ d).weaken rfl
    | exact (Device.loadInputs_touches _ _ d).weaken rfl
    | exact Touches.refl _ d

theorem Device.requestHeadOff_touches (h : Byte) (d : Device) :
    Touches [.sth, .hev, .rtk, .lnk, .dec] d ((d.requestHeadOff h).2) := by
  unfold Device.requestHeadOff
  split
  · exact Touches.refl _ d
  · exact Device.headOff_touches _ d

theorem Device.requestHeadOn_touches (h o : Byte) (d : Device) :
    Touches [.sth] d ((d.requestHeadOn h o).2) := by
  unfold Device.requestHeadOn
  repeat' split
  all_goals first
    | exact Touches.refl _ d
    | exact Device.headOn_touches _ d

theorem Device.requestClearStall_touches (h : Byte) (d : Device) :
    Touches [.sth] d ((d.requestClearStall h).2) := by
  unfold Device.requestClearStall
  split
  · exact Touches.refl _ d
  · exact Device.clearStall_touches _ d

theorem Device.requestClosePack_touches (s : Byte) (d : Device) :
    Touches [.pku, .lnk, .dec] d ((d.requestClosePack s).2) := by
  unfold Device.requestClosePack
  repeat' split
  all_goals first
    | exact Touches.refl _ d
    | exact Device.closePack_touches _ _ d

theorem Device.changeControl_touches (b : Bool) (m : Word32) (d : Device) :
    Touches [.lct] d ((d.changeControl b m).2) := by
  unfold Device.changeControl
  dsimp only
  repeat' split
  all_goals first
    | exact Touches.refl _ d
    | exact Touches.of_lct d _

theorem Device.changeEventMask_touches (b : Bool) (m : Word32) (d : Device) :
    Touches [.lct, .lnk, .dec] d ((d.changeEventMask b m).2) := by
  unfold Device.changeEventMask
  dsimp only
  repeat' split
  · exact Touches.refl _ d
  · exact (Touches.of_lct d _).weaken rfl
  · exact ((Touches.of_lct d _).comp (Device.askEventPlace_touches _)).weaken rfl

theorem Device.changeFlags_touches (b : Bool) (s : Byte) (m : Word32) (d : Device) :
    Touches [.lct, .lnk, .dec] d ((d.changeFlags b s m).2) := by
  unfold Device.changeFlags
  repeat' split
  · exact (Device.changeControl_touches _ _ d).weaken rfl
  · exact Device.changeEventMask_touches _ _ d
  · exact Touches.refl _ d

theorem Device.clearCounters_touches (d : Device) :
    Touches [.lcn, .rtk, .hev, .lnk] d (d.clearCounters) := by
  intro b hb; cases b <;> first | rfl | exact absurd (by decide) hb

theorem Device.resetLine_touches (d : Device) :
    Touches [.bpu, .lcn, .rtk, .hev, .sth, .pku, .lct, .ccu] d (d.resetLine) := by
  intro b hb; cases b <;> first | rfl | exact absurd (by decide) hb

theorem Device.performWaiting_touches (w : Waiting) (d : Device) :
    Touches [.bpu, .lcn, .rtk, .hev, .sth, .pku, .lct, .ccu, .lnk, .dec] d ((d.performWaiting w).2) := by
  unfold Device.performWaiting Device.performFlush Device.performLineReset Device.performReadRegions
  repeat' split
  all_goals first
    | exact Touches.refl _ d
    | exact (Device.flushRegions_touches d).weaken rfl
    | exact (Device.resetLine_touches d).weaken rfl

theorem Device.serve_touches (w : Waiting) (d : Device) :
    Touches [.bpu, .lcn, .rtk, .hev, .sth, .pku, .lct, .ccu, .lnk, .dec] d (d.serve w) := by
  exact (((Device.performWaiting_touches w d).comp (Touches.of_dec _ _)).comp (Device.placeReply_touches _ _)).weaken rfl

theorem Device.serveOldest_touches (d : Device) :
    Touches [.bpu, .lcn, .rtk, .hev, .sth, .pku, .lct, .ccu, .lnk, .dec] d (d.serveOldest) := by
  unfold Device.serveOldest
  split
  · exact Touches.refl _ d
  · exact ((Touches.of_rtk d _).comp (Device.serve_touches _ _)).weaken rfl

theorem Device.walkPending_touches : ∀ (n : Nat) (d : Device),
    Touches [.hev, .sth, .pku, .rtk, .lnk, .dec, .lct] d (Device.walkPending n d)
  | 0, d => Touches.refl _ d
  | n + 1, d => by
    unfold Device.walkPending
    split
    · exact (Device.offerWalk_touches d).trans (Device.walkPending_touches n _)
    · exact Touches.refl _ d

theorem Device.settleFor_touches : ∀ (n : Nat) (d : Device),
    Touches [.bpu, .lcn, .rtk, .hev, .sth, .pku, .lct, .ccu, .lnk, .dec] d (Device.settleFor n d)
  | 0, d => (Device.walkPending_touches 65 d).weaken rfl
  | n + 1, d => by
    unfold Device.settleFor
    dsimp only
    split
    · exact (Device.walkPending_touches 65 d).weaken rfl
    · exact (((Device.walkPending_touches 65 d).comp (Device.serveOldest_touches _)).comp
        (Device.settleFor_touches n _)).weaken rfl

theorem Device.settle_touches (d : Device) :
    Touches [.bpu, .lcn, .rtk, .hev, .sth, .pku, .lct, .ccu, .lnk, .dec] d (d.settle) := by
  exact Device.settleFor_touches _ d

theorem Device.wait_touches (w : Waiting) (d : Device) :
    Touches [.bpu, .lcn, .rtk, .hev, .sth, .pku, .lct, .ccu, .lnk, .dec] d (d.wait w) := by
  have h (x y) : Touches [.bpu, .lcn, .rtk, .hev, .sth, .pku, .lct, .ccu, .lnk, .dec] d
      { d with dec := x, rtk := y } := ((Touches.of_dec d x).comp (Touches.of_rtk _ y)).weaken rfl
  unfold Device.wait
  dsimp only
  repeat' split
  · exact (Device.owe_touches _ d).weaken rfl
  · exact ((h _ _).comp (Device.settle_touches _)).weaken rfl
  · exact h _ _

theorem Device.serveKind_touches (k : Waiting → Bool) (d : Device) :
    Touches [.bpu, .lcn, .rtk, .hev, .sth, .pku, .lct, .ccu, .lnk, .dec] d (d.serveKind k) := by
  unfold Device.serveKind
  repeat' split
  · exact Touches.refl _ d
  · exact ((Device.walkPending_touches 65 d).comp (Device.serveOldest_touches _)).weaken rfl
  · exact Touches.refl _ d

/-- A request touches what its performing touches, the link, the decoder, and the latches of the line control. -/
theorem Device.answer_touches {ps : List Block} {perform : Device → Reply × Device} (k : Byte) (d : Device)
    (h : Touches ps d (perform d).2) : Touches (ps ++ [.lnk, .dec, .lct]) d (d.answer k perform) := by
  unfold Device.answer
  split
  · refine (Device.owe_touches k d).weaken ?_
    simp
  · exact (h.comp (Device.placeReply_touches _ _)).weaken (by simp; exact fun b hb => Or.inl hb)

theorem Device.takeLoad_touches (m : List Byte) (d : Device) :
    Touches [.ccu, .hev, .pku, .lnk, .dec, .sth, .bpu, .lct, .rtk, .draws] d (d.takeLoad m) := by
  exact (Device.answer_touches _ d (Device.performLoad_touches m d)).weaken rfl

theorem Device.openPart_touches (p : Byte) (b : List Byte) (d : Device) :
    Touches [.ccu, .hev, .pku, .lnk, .dec, .sth, .bpu, .lct, .rtk, .draws] d (d.openPart p b) := by
  unfold Device.openPart
  repeat' split
  · exact (Device.countAbandoned_touches d).weaken rfl
  · exact Device.takeLoad_touches _ d
  · exact (Device.setAssembly_touches _ d).weaken rfl

theorem Device.nextPart_touches (a : Assembly) (p : Byte) (b : List Byte) (d : Device) :
    Touches [.ccu, .hev, .pku, .lnk, .dec, .sth, .bpu, .lct, .rtk, .draws] d (d.nextPart a p b) := by
  unfold Device.nextPart
  repeat' split
  · exact (((Device.setAssembly_touches _ d).comp (Device.countAbandoned_touches _)).comp
      (Device.openPart_touches _ _ _)).weaken rfl
  · exact ((Device.setAssembly_touches _ d).comp (Device.takeLoad_touches _ _)).weaken rfl
  · exact (Device.setAssembly_touches _ d).weaken rfl
  · exact ((Device.setAssembly_touches _ d).comp (Device.countAbandoned_touches _)).weaken rfl

theorem Device.takePart_touches (b : List Byte) (d : Device) :
    Touches [.ccu, .hev, .pku, .lnk, .dec, .sth, .bpu, .lct, .rtk, .draws] d (d.takePart b) := by
  unfold Device.takePart
  repeat' split
  · exact Device.takeLoad_touches _ d
  · exact Device.openPart_touches _ _ d
  · exact Device.nextPart_touches _ _ _ d

theorem Device.partTimeout_touches (d : Device) :
    Touches [.lnk, .lct] d (d.partTimeout) := by
  unfold Device.partTimeout
  repeat' split
  · exact ((Device.setAssembly_touches _ d).comp (Device.countAbandoned_touches _)).weaken rfl
  all_goals exact Touches.refl _ d

theorem Device.lineFrame_touches (s : Byte) (b : List Byte) (d : Device) :
    Touches [.lnk, .dec, .lcn, .bpu, .lct] d (d.lineFrame s b) := by
  unfold Device.lineFrame
  split
  · exact ((Device.forwardDown_touches _ d).comp (Device.acceptLine_touches _ _)).weaken rfl
  · exact (Device.acceptLine_touches _ d).weaken rfl

/-- A request reaches every block but the supply. -/
theorem Device.takeRequest_touches (c : Instr) (d : Device) :
    Touches [.bpu, .lcn, .rtk, .hev, .sth, .pku, .lct, .ccu, .lnk, .dec, .draws] d (d.takeRequest c) := by
  have keeps {perform : Device → Reply × Device} (k : Byte) (h : (perform d).2 = d) :
      Touches [.lnk, .dec, .lct] d (d.answer k perform) :=
    (Device.answer_touches (ps := []) k d (by rw [h]; exact Touches.refl _ d)).weaken rfl
  cases c
  case query => exact (keeps _ rfl).weaken rfl
  case start => exact (Device.answer_touches _ d (Device.requestStart_touches d)).weaken rfl
  case stop => exact (Device.answer_touches _ d (Device.stopLine_touches d)).weaken rfl
  case ackFault => exact (Device.answer_touches _ d (Device.requestAckFault_touches d)).weaken rfl
  case flush => exact (Device.wait_touches _ d).weaken rfl
  case lineReset => exact (Device.wait_touches _ d).weaken rfl
  case readRegions => exact (Device.wait_touches _ d).weaken rfl
  case commitCal => exact (Device.answer_touches _ d (Device.commitCal_touches _ d)).weaken rfl
  case readWidths => exact (keeps _ rfl).weaken rfl
  case readMask => exact (keeps _ rfl).weaken rfl
  case readConditioning => exact (keeps _ rfl).weaken rfl
  case readTerms => exact (keeps _ rfl).weaken rfl
  case readHeads => exact (keeps _ rfl).weaken rfl
  case readInputs => exact (keeps _ rfl).weaken rfl
  case readRecords => exact (keeps _ rfl).weaken rfl
  case readQueues => exact (keeps _ rfl).weaken rfl
  case readBadArea => exact (keeps _ rfl).weaken rfl
  case setFlagsControl => exact (Device.answer_touches _ d (Device.changeFlags_touches _ _ _ d)).weaken rfl
  case clearFlagsControl => exact (Device.answer_touches _ d (Device.changeFlags_touches _ _ _ d)).weaken rfl
  case setFlagsEventMask => exact (Device.answer_touches _ d (Device.changeFlags_touches _ _ _ d)).weaken rfl
  case clearFlagsEventMask => exact (Device.answer_touches _ d (Device.changeFlags_touches _ _ _ d)).weaken rfl
  case headEnableOff => exact (Device.answer_touches _ d (Device.requestHeadOff_touches _ d)).weaken rfl
  case headEnableOn => exact (Device.answer_touches _ d (Device.requestHeadOn_touches _ _ d)).weaken rfl
  case clearStall => exact (Device.answer_touches _ d (Device.requestClearStall_touches _ d)).weaken rfl
  case closePack => exact (Device.answer_touches _ d (Device.requestClosePack_touches _ d)).weaken rfl
  case lockNext => exact (Device.answer_touches _ d (Touches.of_ccu d _)).weaken rfl
  case clearCounters => exact (Device.answer_touches _ d (Device.clearCounters_touches d)).weaken rfl
  case unknownRequest => exact (keeps _ rfl).weaken rfl
  all_goals exact Touches.refl _ d

/-- A good frame routed reaches every block but the supply. -/
theorem Device.route_touches (p : Port) (f : Frame) (d : Device) :
    Touches [.bpu, .lcn, .rtk, .hev, .sth, .pku, .lct, .ccu, .lnk, .dec, .draws] d (d.route p f) := by
  unfold Device.route Device.routeUpstream Device.routeDownstream
  repeat' split
  all_goals first
    | exact (Device.lineFrame_touches _ _ d).weaken rfl
    | exact (Device.forwardDown_touches _ d).weaken rfl
    | exact (Device.takePart_touches _ d).weaken rfl
    | exact Device.takeRequest_touches _ d
    | exact (Device.forwardUp_touches _ d).weaken rfl
    | exact (Device.discardFrame_touches d).weaken rfl

theorem Device.received_touches {ps : List Block} {f : Device → Device} (p : Port) (d : Device)
    (h : ∀ d, Touches ps d (f d)) : Touches ([.lnk] ++ ps) d (d.received p f) :=
  (Device.setReceiver_touches p .hunting d).comp (h _)

theorem Device.takeByte_touches (p : Port) (b : Byte) (d : Device) :
    Touches [.bpu, .lcn, .rtk, .hev, .sth, .pku, .lct, .ccu, .lnk, .dec, .draws] d (d.takeByte p b) := by
  unfold Device.takeByte
  repeat' split
  · exact (Device.setReceiver_touches _ _ d).weaken rfl
  · exact Touches.refl _ d
  · exact (Device.setReceiver_touches _ _ d).weaken rfl
  · exact (Device.received_touches p d Device.discardFrame_touches).weaken rfl
  · exact (Device.received_touches p d (Device.route_touches p _)).weaken rfl

theorem Device.frameTimeout_touches (p : Port) (d : Device) :
    Touches [.lnk, .lct] d (d.frameTimeout p) := by
  unfold Device.frameTimeout
  repeat' split
  · exact Touches.refl _ d
  · exact ((Device.setReceiver_touches _ _ d).comp (Device.discardFrame_touches _)).weaken rfl
  · exact Touches.refl _ d

theorem Device.takeNext_touches (w : QueueEntry → Bool) (d : Device) :
    Touches [.bpu, .lcn, .rtk, .hev, .sth, .pku, .lct, .ccu, .lnk, .dec] d (d.takeNext w) := by
  unfold Device.takeNext
  repeat' split
  all_goals first
    | exact Touches.refl _ d
    | exact ((Device.settle_touches d).comp (Device.takeEntry_touches _)).weaken rfl

theorem Device.trackLine_touches (d : Device) :
    Touches [.bpu, .lcn, .rtk, .hev, .sth, .pku, .lct, .ccu, .lnk, .dec] d (d.trackLine) := by
  unfold Device.trackLine Device.performEntry
  repeat' split
  · exact (((Device.takeNext_touches _ d).comp (Device.replayAll_touches _ _ _)).comp
      (Device.performLine_touches _ _)).weaken rfl
  · exact Device.takeNext_touches _ d
  · exact Touches.refl _ d

theorem Device.trackFill_touches (d : Device) :
    Touches [.bpu, .lcn, .rtk, .hev, .sth, .pku, .lct, .ccu, .lnk, .dec] d (d.trackFill) := by
  unfold Device.trackFill Device.nextFill
  repeat' split
  · exact Device.takeNext_touches _ d
  · exact ((Device.takeNext_touches _ d).comp (Device.replayOne_touches _ _ _)).weaken rfl
  · exact Device.takeNext_touches _ d
  · exact Touches.refl _ d

theorem Device.walkBetweenLines_touches (d : Device) :
    Touches [.hev, .sth, .pku, .rtk, .lnk, .dec, .lct] d (d.walkBetweenLines) := by
  unfold Device.walkBetweenLines
  split
  · exact Device.offerWalk_touches d
  · exact Touches.refl _ d

/-- An event touches what its effect touches, and what the EVENT frame at its end touches. -/
theorem Device.event_touches {ps : List Block} {f : Device → Device} (d : Device) (h : Touches ps d (f d)) :
    Touches (ps ++ [.lct, .lnk, .dec]) d (d.event f) := by
  unfold Device.event
  split
  · exact h.comp (Device.askEventPlace_touches _)
  · exact Touches.refl _ d

/-- Bytes of a port reach what their frames reach. -/
theorem Device.takeBytes_touches (p : Port) (bytes : List Byte) (d : Device) :
    Touches [.bpu, .lcn, .rtk, .hev, .sth, .pku, .lct, .ccu, .lnk, .dec, .draws] d (d.takeBytes p bytes) := by
  induction bytes generalizing d with
  | nil => exact Touches.refl _ d
  | cons b rest ih =>
    exact ((Device.event_touches d (Device.takeByte_touches p b d)).comp (ih (d.event (Device.takeByte p b)))).weaken rfl

end Sys2Proof.Machine
end

