-- ==== Sys2Proof/Laws/Heads.lean ====
section
/-!
SUPPORT. The place of a fire position in a stamp queue: what splitQueue gives, and that an entry placed there leaves a rising queue
rising (R115, R116).
-/

namespace Sys2Proof.Machine

theorem splitQueue_append (fire : Position) : ∀ q, (splitQueue fire q).1 ++ (splitQueue fire q).2 = q
  | [] => rfl
  | a :: q => by
    unfold splitQueue
    by_cases h : ahead a.fire fire
    · simp [h]
    · simp only [h, Bool.false_eq_true, if_false, List.cons_append, splitQueue_append fire q]

/-- No entry before the place is ahead of the fire position. -/
theorem splitQueue_front (fire : Position) : ∀ q, ∀ e ∈ (splitQueue fire q).1, posDiff e.fire fire ≤ 0
  | [] => by simp [splitQueue]
  | a :: q => by
    intro e
    unfold splitQueue
    by_cases h : ahead a.fire fire
    · simp [h]
    · simp only [h, Bool.false_eq_true, if_false]
      intro he
      rcases List.mem_cons.1 he with rfl | he
      · simpa [ahead] using h
      · exact splitQueue_front fire q e he

/-- The first entry behind the place is ahead of the fire position. -/
theorem splitQueue_back (fire : Position) : ∀ q e, (splitQueue fire q).2.head? = some e → 0 < posDiff e.fire fire
  | [] => by simp [splitQueue]
  | a :: q => by
    intro e
    unfold splitQueue
    by_cases h : ahead a.fire fire
    · simp only [h, if_true, List.head?_cons, Option.some.injEq]
      rintro rfl
      simpa [ahead] using h
    · simp only [h, Bool.false_eq_true, if_false]
      exact splitQueue_back fire q e

/-- Within 2^47 pulses of a base, modular difference is the difference of the distances from the base. -/
theorem posDiff_within {base a b : Position} (ha : 0 ≤ posDiff a base) (hb : 0 ≤ posDiff b base) :
    posDiff a b = posDiff a base - posDiff b base := by
  unfold posDiff at *
  have split : a - b = (a - base) - (b - base) := by
    apply BitVec.eq_of_toNat_eq
    simp [BitVec.toNat_sub]
  rw [split, BitVec.toInt_sub]
  have h1 := BitVec.toInt_lt (x := a - base)
  have h2 := BitVec.toInt_lt (x := b - base)
  rw [Int.bmod_def]
  have e2 : ((2 ^ 48 : Nat) : Int) = 281474976710656 := by norm_num
  have e3 : (2 : Int) ^ (48 - 1) = 140737488355328 := by norm_num
  rw [e3] at h1 h2
  rw [e2]
  split <;> omega

/-- An entry that is not crowded leaves a rising queue rising. -/
theorem queueRises_insert {spacing : Nat} {e : StampEntry} {front back : List StampEntry}
    (rises : queueRises (front ++ back)) (positive : 1 ≤ spacing) (free : crowded spacing e.fire front back = false)
    (next : ∀ z, back.head? = some z → 0 < posDiff z.fire e.fire)
    (within : queueWithinHalf (front ++ e :: back)) : queueRises (front ++ e :: back) := by
  obtain ⟨base, hb⟩ := within
  have key : ∀ x y, x ∈ front ++ e :: back → y ∈ front ++ e :: back →
      posDiff x.fire y.fire = posDiff x.fire base - posDiff y.fire base :=
    fun x y hx hy => posDiff_within (hb x hx) (hb y hy)
  unfold queueRises at rises ⊢
  rw [List.pairwise_append] at rises
  obtain ⟨p1, p2, p12⟩ := rises
  rw [List.pairwise_append, List.pairwise_cons]
  refine ⟨p1, ⟨?_, p2⟩, ?_⟩
  · intro y hy
    cases back with
    | nil => cases hy
    | cons z back =>
      have hz := next z rfl
      rcases List.mem_cons.1 hy with rfl | hy
      · exact hz
      · have := (List.pairwise_cons.1 p2).1 y hy
        rw [key _ _ (by simp) (by simp)] at hz
        rw [key _ _ (by simp [hy]) (by simp)] at this
        rw [key _ _ (by simp [hy]) (by simp)]
        omega
  · intro x hx y hy
    rcases List.mem_cons.1 hy with rfl | hy
    · rcases List.eq_nil_or_concat front with rfl | ⟨ini, l, rfl⟩
      · cases hx
      · have hl : 0 < posDiff y.fire l.fire := by
          simp [crowded] at free
          omega
        simp only [List.concat_eq_append] at *
        rcases List.mem_append.1 hx with hx | hx
        · have := (List.pairwise_append.1 p1).2.2 x hx l (by simp)
          rw [key _ _ (by simp) (by simp)] at hl
          rw [key _ _ (by simp) (by simp [hx])] at this
          rw [key _ _ (by simp) (by simp [hx])]
          omega
        · simp at hx
          subst hx
          exact hl
    · exact p12 x hx y hy

end Sys2Proof.Machine
end

