-- ==== Sys2Proof/Laws/Lines.lean ====
section
/-!
SUPPORT. What a missed-line declaration, a pause of the line and the presenting of a position leave of the belt unit, and what a
good frame leaves of a device.
-/

namespace Sys2Proof.Machine

/-- The belt unit but for its pause timer and the pulses left of the free-run source. -/
def Bpu.sameBelt (b m : Bpu) : Prop := m = { b with pauseTimer := m.pauseTimer, freeRunLeft := m.freeRunLeft }

theorem Device.pauseLine_belt (c : HaltCause) (t : Bool) (d : Device) :
    d.bpu.sameBelt (d.pauseLine c t).bpu ∧ (d.pauseLine c t).lcn = d.lcn ∧
      (d.bpu.outstanding = [] → (d.pauseLine c t).bpu.pauseTimer = d.bpu.pauseTimer) := by
  unfold Device.pauseLine
  split
  · exact ⟨rfl, rfl, fun h => by simp [Bpu.leaveRunning, h]⟩
  · exact ⟨rfl, rfl, fun _ => rfl⟩

theorem Device.lineLoss_belt (d : Device) :
    d.bpu.sameBelt d.lineLoss.bpu ∧ d.lineLoss.lcn = d.lcn ∧
      (d.bpu.outstanding = [] → d.lineLoss.bpu.pauseTimer = d.bpu.pauseTimer) :=
  Device.pauseLine_belt _ _ (d.raise .lineLoss)

theorem Device.placeFillEntry_belt (d : Device) :
    d.bpu.sameBelt d.placeFillEntry.bpu ∧ d.placeFillEntry.lcn.missed = d.lcn.missed ∧
      (d.bpu.outstanding = [] → d.placeFillEntry.bpu.pauseTimer = d.bpu.pauseTimer) := by
  unfold Device.placeFillEntry
  dsimp only
  repeat' split
  · exact ⟨(Device.lineLoss_belt _).1, by simp [(Device.lineLoss_belt _).2.1], fun h => (Device.lineLoss_belt _).2.2 h⟩
  · exact ⟨rfl, rfl, fun _ => rfl⟩
  · exact ⟨rfl, rfl, fun _ => rfl⟩

/-- A declaration keeps the belt, counts the line, and leaves the pause timer alone when no line is outstanding (R14, R24). -/
theorem Device.declareMissed_belt (o : Outstanding) (d : Device) :
    d.bpu.sameBelt (d.declareMissed o).bpu ∧ (d.declareMissed o).lcn.missed = sat16 d.lcn.missed 1 ∧
      (d.bpu.outstanding = [] → (d.declareMissed o).bpu.pauseTimer = d.bpu.pauseTimer) := by
  unfold Device.declareMissed
  dsimp only
  repeat' split
  · exact ⟨(Device.lineLoss_belt _).1, by simp [(Device.lineLoss_belt _).2.1], fun h => (Device.lineLoss_belt _).2.2 h⟩
  · exact ⟨rfl, rfl, fun _ => rfl⟩
  · exact ⟨(Device.placeFillEntry_belt _).1, (Device.placeFillEntry_belt _).2.1, fun h => (Device.placeFillEntry_belt _).2.2 h⟩

/-- A position presented to the heads changes neither the belt, nor the conditioner, nor the line control (R127). -/
theorem Device.presentPosition_keeps (p : Direction) (d : Device) :
    (d.presentPosition p).bpu = d.bpu ∧ (d.presentPosition p).lcn = d.lcn ∧ (d.presentPosition p).lct = d.lct :=
  have h := Device.presentPosition_touches p d
  ⟨h .bpu (by decide), h .lcn (by decide), h .lct (by decide)⟩

/-- A good frame on the downstream port changes the receiver alone. -/
theorem Device.heard_keeps (d : Device) :
    d.heard.bpu = d.bpu ∧ d.heard.lcn = d.lcn ∧ d.heard.rtk = d.rtk ∧ d.heard.hev = d.hev ∧ d.heard.sth = d.sth ∧
      d.heard.pku = d.pku ∧ d.heard.lct = d.lct ∧ d.heard.ccu = d.ccu ∧ d.heard.dec = d.dec ∧
      (∀ n, d.heard.head n = d.head n) ∧ (∀ n, d.heard.slot n = d.slot n) ∧ ∀ i, d.heard.record i = d.record i :=
  ⟨rfl, rfl, rfl, rfl, rfl, rfl, rfl, rfl, rfl, fun _ => rfl, fun _ => rfl, fun _ => rfl⟩

end Sys2Proof.Machine
end

