-- ==== Sys2Proof/Laws/Packs.lean ====
section
/-!
SUPPORT. The pack unit (chapter 7): what the close of a pack leaves, in its slot and in the report FIFO.
-/

namespace Sys2Proof.Machine

/-- The close of a FILLING pack into an EMPTY buffer (R145, R147): with room in the report FIFO its PACK frame is placed, and otherwise
the buffer holds it. -/
theorem Device.closePack_eq {n : Fin 4} {d : Device} {p : Pack} (flags : CloseFlags) (hl : d.pku.slots.length = 4)
    (ha : (d.slot n).acc = some p) (hb : (d.slot n).buf = none) :
    d.closePack n flags =
      if d.reportRoom then (d.setSlot n ⟨none, none⟩).placeReport (packFrame n ⟨p, flags, d.bpu.uptime⟩)
      else d.setSlot n ⟨none, some ⟨p, flags, d.bpu.uptime⟩⟩ := by
  unfold Device.closePack
  rw [ha, hb]
  dsimp only
  unfold Device.askPackPlace
  rw [Device.slot_setSlot hl]
  dsimp only
  rw [show (d.setSlot n ⟨none, some ⟨p, flags, d.bpu.uptime⟩⟩).reportRoom = d.reportRoom from rfl]
  split
  · congr 1
    simp [Device.setSlot]
  · rfl

/-- Nothing to close: no pack FILLING, or the close buffer HELD. -/
theorem Device.closePack_none {n : Fin 4} {d : Device} (flags : CloseFlags)
    (h : (d.slot n).acc = none ∨ (d.slot n).buf ≠ none) : d.closePack n flags = d := by
  unfold Device.closePack
  split
  · rename_i ha hb
    rcases h with h | h
    · rw [h] at ha
      cases ha
    · exact absurd hb h
  · rfl

end Sys2Proof.Machine
end

