-- ==== Sys2Proof/Laws/Tracker.lean ====
section
/-!
SUPPORT. What the tracker's operations leave of its lists: evaluation and the offer walk change the table, the stack and
retry pending only; a line operation makes the previous-line list of its runs.
-/

namespace Sys2Proof.Machine

/-- The tracker but for its table, stack and retry pending. -/
def Rtk.sameLists (k m : Rtk) : Prop :=
  m = { k with table := m.table, stack := m.stack, retryPending := m.retryPending }

theorem Rtk.sameLists_refl (k : Rtk) : k.sameLists k := rfl

theorem Rtk.sameLists_trans {k m n : Rtk} (h : k.sameLists m) (g : m.sameLists n) : k.sameLists n := by
  unfold Rtk.sameLists at *
  rw [h] at g
  exact g

/-- The tracker but for retry pending: all that the other blocks set in it. -/
def Rtk.sameButRetry (k m : Rtk) : Prop := m = { k with retryPending := m.retryPending }

theorem Rtk.sameButRetry_trans {k m n : Rtk} (h : k.sameButRetry m) (g : m.sameButRetry n) : k.sameButRetry n := by
  unfold Rtk.sameButRetry at *
  rw [h] at g
  exact g

theorem Rtk.sameButRetry_of_eq {k m : Rtk} (h : m = k) : k.sameButRetry m := by subst h; rfl

theorem Device.reportHide_rtk (i : Nat) (r : HideRecord) (d : Device) : d.rtk.sameButRetry (d.reportHide i r).rtk := by
  have h : (d.placeReport (hideFrame i r)).rtk = d.rtk := Device.placeReport_touches _ d .rtk (by decide)
  unfold Device.reportHide Rtk.sameButRetry
  simp [h]

theorem Device.askHidePlace_rtk (i : Nat) (d : Device) : d.rtk.sameButRetry (d.askHidePlace i).rtk := by
  unfold Device.askHidePlace
  repeat' split
  · exact Device.reportHide_rtk _ _ d
  all_goals rfl

theorem Device.evaluate_rtk (o : Region) (d : Device) : d.rtk.sameButRetry (d.evaluate o).2.rtk := by
  unfold Device.evaluate
  repeat' split
  · rfl
  · rfl
  · rfl
  · rename_i t _ _ _ slot _
    have h : (((Device.stampDecision t slot (d.makeRecord t o)
        { d with hev := { d.hev with nextHide := d.hev.nextHide + 1 } }).feedHide t (d.makeRecord t o)).rtk) = d.rtk :=
      (Device.feedHide_touches _ _ _ .rtk (by decide)).trans (Device.stampDecision_touches _ _ _ _ .rtk (by decide))
    have g := Device.askHidePlace_rtk slot ((Device.stampDecision t slot (d.makeRecord t o)
        { d with hev := { d.hev with nextHide := d.hev.nextHide + 1 } }).feedHide t (d.makeRecord t o))
    rw [h] at g
    exact g

theorem Device.offer_rtk (i : Nat) (d : Device) : d.rtk.sameLists (d.offer i).rtk := by
  have h := Device.evaluate_rtk (d.rtk.region i) d
  unfold Device.offer
  split
  · rename_i e he
    rw [he] at h
    rw [h]
    rfl
  · rename_i e _ he
    rw [he] at h
    dsimp only at h ⊢
    rw [h]
    rfl

theorem Device.offers_rtk : ∀ (l : List Nat) (d : Device), d.rtk.sameLists (l.foldl Device.offer d).rtk
  | [], _ => rfl
  | i :: l, d => Rtk.sameLists_trans (Device.offer_rtk i d) (Device.offers_rtk l (d.offer i))

theorem Device.offerWalk_rtk (d : Device) : d.rtk.sameLists d.offerWalk.rtk :=
  Device.offers_rtk _ { d with rtk := { d.rtk with retryPending := false } }

/-- First cell, last cell and width of each span. -/
def spanShape (l : List Span) : List (Nat × Nat × Nat) := l.map fun r => (r.first, r.last, r.width)

/-- The tracker but for its table, stack, lists of the present line, exhaustion count and retry pending. -/
def Rtk.sameRecord (k m : Rtk) : Prop :=
  m = { k with table := m.table, stack := m.stack, cur := m.cur, exhaustion := m.exhaustion, prev := m.prev
               retryPending := m.retryPending }

theorem Rtk.sameRecord_trans {k m n : Rtk} (h : k.sameRecord m) (g : m.sameRecord n) : k.sameRecord n := by
  unfold Rtk.sameRecord at *
  rw [h] at g
  exact g

theorem Rtk.foldl_rel {α : Type} {R : Rtk → Rtk → Prop} (hr : ∀ k, R k k) (ht : ∀ {k m n}, R k m → R m n → R k n)
    {f : Rtk → α → Rtk} (h : ∀ k a, R k (f k a)) : ∀ (l : List α) (k : Rtk), R k (l.foldl f k)
  | [], k => hr k
  | a :: l, k => ht (h k a) (Rtk.foldl_rel hr ht h l (f k a))

/-- A table operation: the lists, the previous line, the counts and the waiting requests are as before. -/
def Rtk.tableOnly (k m : Rtk) : Prop :=
  m = { k with table := m.table, stack := m.stack, exhaustion := m.exhaustion }

theorem Rtk.tableOnly_refl (k : Rtk) : k.tableOnly k := rfl

theorem Rtk.tableOnly_trans {k m n : Rtk} (h : k.tableOnly m) (g : m.tableOnly n) : k.tableOnly n := by
  unfold Rtk.tableOnly at *
  rw [h] at g
  exact g

theorem Rtk.tableOnly_fold {α : Type} {f : Rtk → α → Rtk} (h : ∀ (k : Rtk) a, k.tableOnly (f k a)) (l : List α) (k : Rtk) :
    k.tableOnly (l.foldl f k) := Rtk.foldl_rel Rtk.tableOnly_refl Rtk.tableOnly_trans h l k

theorem Rtk.joinSpan_tableOnly (c : LineContext) (kind : RegionKind) (roots : List Nat) (first last : Nat)
    (openTop : Bool) (k : Rtk) : k.tableOnly (k.joinSpan c kind roots first last openTop).1 := by
  unfold Rtk.joinSpan
  split
  · unfold Rtk.allocate
    split <;> rfl
  · exact Rtk.tableOnly_trans (Rtk.tableOnly_fold (fun k j => (rfl : k.tableOnly (k.mergeInto c _ j))) _ k) rfl

theorem Rtk.accumulate_tableOnly (c : LineContext) (k : Rtk) (s : Span) : k.tableOnly (k.accumulate c s) := by
  unfold Rtk.accumulate
  split <;> rfl

theorem Rtk.markEdge_tableOnly (k : Rtk) (s : Span) : k.tableOnly (k.markEdge s) := by
  unfold Rtk.markEdge
  repeat' split
  all_goals rfl

theorem Rtk.pushAnchor_tableOnly (c : LineContext) (k : Rtk) (root : Nat) : k.tableOnly (k.pushAnchor c root) := by
  unfold Rtk.pushAnchor
  split <;> rfl

theorem Rtk.stage3_tableOnly (c : LineContext) (k : Rtk) : k.tableOnly (k.stage3 c) := by
  unfold Rtk.stage3
  dsimp only
  have h : k.tableOnly (k.cur.runs.foldl (Rtk.accumulate c) k) :=
    Rtk.tableOnly_fold (Rtk.accumulate_tableOnly c) _ k
  generalize k.cur.runs.foldl (Rtk.accumulate c) k = a at h ⊢
  have h := Rtk.tableOnly_trans h (Rtk.tableOnly_fold Rtk.markEdge_tableOnly a.cur.runs a)
  generalize a.cur.runs.foldl Rtk.markEdge a = b at h ⊢
  have h := Rtk.tableOnly_trans h (Rtk.tableOnly_fold (Rtk.pushAnchor_tableOnly c) b.touchedRoots b)
  split
  · exact Rtk.tableOnly_trans h (Rtk.tableOnly_fold (fun k r => (rfl : k.tableOnly (k.countFill r))) _ _)
  · exact h

/-- What the runs of a line come to: the present line's runs, in order, with their shape (R49 to R52). -/
theorem Rtk.matchRuns_shape (c : LineContext) : ∀ (runs : List Run) (k : Rtk),
    k.sameRecord (runs.foldl (Rtk.matchRun c) k) ∧
      spanShape (runs.foldl (Rtk.matchRun c) k).cur.runs =
        spanShape k.cur.runs ++ runs.map fun r => (r.first, r.last, r.width)
  | [], k => ⟨rfl, by simp⟩
  | r :: runs, k => by
    have hj := Rtk.joinSpan_tableOnly c .leather (k.rootsOver c.diagJoin k.prev.runs r.first r.last) r.first r.last false k
    obtain ⟨h1, h2⟩ := Rtk.matchRuns_shape c runs (k.matchRun c r)
    have hm : k.sameRecord (k.matchRun c r) ∧
        spanShape (k.matchRun c r).cur.runs = spanShape k.cur.runs ++ [(r.first, r.last, r.width)] := by
      unfold Rtk.matchRun
      dsimp only
      rw [hj]
      exact ⟨rfl, by simp [spanShape]⟩
    refine ⟨Rtk.sameRecord_trans hm.1 h1, ?_⟩
    rw [List.foldl_cons, h2, hm.2]
    simp

theorem Rtk.tableOnly.sameRecord {k m : Rtk} (h : k.tableOnly m) : k.sameRecord m := by
  unfold Rtk.tableOnly at h
  unfold Rtk.sameRecord
  rw [h]

/-- Stages 4 to 7 leave the present line's runs in shape. -/
theorem Rtk.stages4to7_shape (c : LineContext) (k : Rtk) :
    k.sameRecord (((k.stage4 c).stage5.stage6 c.line).stage7 false) ∧
      spanShape (((k.stage4 c).stage5.stage6 c.line).stage7 false).cur.runs = spanShape k.cur.runs := by
  have h4 : ∀ (l : List Run) (k : Rtk), k.sameRecord (l.foldl (Rtk.matchGap c) k) ∧
      (l.foldl (Rtk.matchGap c) k).cur.runs = k.cur.runs := by
    intro l
    induction l with
    | nil => exact fun k => ⟨rfl, rfl⟩
    | cons g l ih =>
      intro k
      have hj := Rtk.joinSpan_tableOnly c .gap (k.rootsOver c.diagJoin k.prev.gaps g.first g.last) g.first g.last
        (coveredBy k.prev.runs g.first g.last).isNone k
      have hm : k.sameRecord (k.matchGap c g) ∧ (k.matchGap c g).cur.runs = k.cur.runs := by
        unfold Rtk.matchGap
        dsimp only
        rw [hj]
        exact ⟨rfl, rfl⟩
      obtain ⟨i1, i2⟩ := ih (k.matchGap c g)
      exact ⟨Rtk.sameRecord_trans hm.1 i1, i2.trans hm.2⟩
  have hs4 : k.sameRecord (k.stage4 c) ∧ (k.stage4 c).cur.runs = k.cur.runs := by
    unfold Rtk.stage4
    dsimp only
    obtain ⟨a, b⟩ := h4 (gapsOf c.sums k.cur.runs) k
    have t := Rtk.tableOnly_fold (Rtk.accumulate_tableOnly c)
      ((gapsOf c.sums k.cur.runs).foldl (Rtk.matchGap c) k).cur.gaps ((gapsOf c.sums k.cur.runs).foldl (Rtk.matchGap c) k)
    refine ⟨Rtk.sameRecord_trans a t.sameRecord, ?_⟩
    rw [t]
    exact b
  generalize k.stage4 c = a at hs4 ⊢
  have hrel : ∀ (k : Rtk) (i : Nat), k.tableOnly (k.release i) := fun _ _ => rfl
  have h5 : a.sameRecord a.stage5 ∧ spanShape a.stage5.cur.runs = spanShape a.cur.runs := by
    unfold Rtk.stage5
    dsimp only
    have t := Rtk.tableOnly_fold hrel
      ((List.range 64).filter fun i =>
        (Rtk.region { a with prev := a.relabel a.prev, cur := a.relabel a.cur } i).state == .merged)
      { a with prev := a.relabel a.prev, cur := a.relabel a.cur }
    have r : a.sameRecord { a with prev := a.relabel a.prev, cur := a.relabel a.cur } := rfl
    refine ⟨Rtk.sameRecord_trans r t.sameRecord, ?_⟩
    rw [t]
    simp only [spanShape, Rtk.relabel, List.map_map]
    refine List.map_congr_left fun s _ => ?_
    simp only [Function.comp, Rtk.relabelSpan]
    split <;> rfl
  generalize a.stage5 = b at h5 ⊢
  have hcl : ∀ (k : Rtk) (i : Nat), k.tableOnly (k.closeGap c.line i) := by
    intro k i
    unfold Rtk.closeGap
    split <;> rfl
  have t6 : b.tableOnly (b.stage6 c.line) := Rtk.tableOnly_fold hcl _ b
  refine ⟨Rtk.sameRecord_trans hs4.1 (Rtk.sameRecord_trans h5.1 (Rtk.sameRecord_trans t6.sameRecord rfl)), ?_⟩
  show spanShape (b.stage6 c.line).cur.runs = _
  rw [t6]
  exact h5.2.trans (by rw [hs4.2])

/-- A line operation: the previous line is its line with its runs, the present line is empty, and nothing else of the
tracker's lists and requests has changed. -/
theorem Device.lineOperation_rtk (c : LineContext) (runs : List Run) (d : Device) (h : d.rtk.cur = ⟨[], []⟩) :
    (d.lineOperation c runs).rtk.prevLine = some ⟨c.line, c.pos⟩ ∧
      spanShape (d.lineOperation c runs).rtk.prev.runs = (runs.map fun r => (r.first, r.last, r.width)) ∧
      (d.lineOperation c runs).rtk.cur = ⟨[], []⟩ ∧
      (d.lineOperation c runs).rtk.linesProcessed =
        (if c.isFill then d.rtk.linesProcessed else sat16 d.rtk.linesProcessed 1) ∧
      (d.lineOperation c runs).rtk.work = d.rtk.work ∧ (d.lineOperation c runs).rtk.waiting = d.rtk.waiting := by
  have hk : d.rtk.sameRecord (d.rtk.stages2to7 c runs) ∧
      spanShape (d.rtk.stages2to7 c runs).cur.runs = (runs.map fun r => (r.first, r.last, r.width)) := by
    unfold Rtk.stages2to7
    obtain ⟨a, b⟩ := Rtk.matchRuns_shape c runs d.rtk
    dsimp only
    generalize runs.foldl (Rtk.matchRun c) d.rtk = m at a b ⊢
    have t3 := Rtk.stage3_tableOnly c m
    obtain ⟨e, f⟩ := Rtk.stages4to7_shape c (m.stage3 c)
    refine ⟨Rtk.sameRecord_trans a (Rtk.sameRecord_trans t3.sameRecord e), f.trans ?_⟩
    have : (m.stage3 c).cur = m.cur := by rw [t3]
    rw [this, b, h]
    rfl
  generalize hm : d.rtk.stages2to7 c runs = m at hk
  have hw : ∀ e : Device, e.rtk = m → m.sameLists e.offerWalk.rtk := fun e he => he ▸ Device.offerWalk_rtk e
  have hu : m.sameLists
      (Device.offerWalk (if m.anyUntracked then Device.raise { d with rtk := m } .tableExhausted else { d with rtk := m })).rtk := by
    split
    · exact hw _ rfl
    · exact hw _ rfl
  have e : (d.lineOperation c runs).rtk = Rtk.stage9 c
      (Device.offerWalk (if m.anyUntracked then Device.raise { d with rtk := m } .tableExhausted else { d with rtk := m })).rtk := by
    rw [← hm]
    rfl
  rw [e]
  generalize (Device.offerWalk (if m.anyUntracked then Device.raise { d with rtk := m } .tableExhausted
    else { d with rtk := m })).rtk = x at hu ⊢
  obtain ⟨hs, hr⟩ := hk
  rw [hu]
  refine ⟨rfl, hr, rfl, ?_, ?_, ?_⟩
  · show (if c.isFill then m.linesProcessed else sat16 m.linesProcessed 1) = _
    rw [hs]
  · show m.work = _
    rw [hs]
  · show m.waiting = _
    rw [hs]

theorem spanShape_spanRun (l : List Span) :
    ((l.map spanRun).map fun r => (r.first, r.last, r.width)) = spanShape l := by
  simp [spanShape, spanRun]

/-- One replay (R48): the previous line's runs again, under the replay's own line number and position. -/
theorem Device.replayOne_rtk (t : Terms) (w : Work) (d : Device) (h : d.rtk.cur = ⟨[], []⟩) :
    (d.replayOne t w).rtk.prevLine =
        some ⟨w.entry.line - BitVec.ofNat 32 (w.entry.fillsBefore - w.done),
          w.entry.pos - BitVec.ofNat 48 ((w.entry.fillsBefore - w.done) * d.ccu.ppl)⟩ ∧
      spanShape (d.replayOne t w).rtk.prev.runs = spanShape d.rtk.prev.runs ∧
      (d.replayOne t w).rtk.cur = ⟨[], []⟩ ∧ (d.replayOne t w).rtk.linesProcessed = d.rtk.linesProcessed ∧
      (d.replayOne t w).rtk.work =
        (if w.entry.content = .fill ∧ w.entry.replays - (w.done + 1) = 0 then none
        else some { w with done := w.done + 1 }) := by
  unfold Device.replayOne Device.performFill
  dsimp only
  have hl := Device.lineOperation_rtk
    (d.lineContext t (w.entry.line - BitVec.ofNat 32 (w.entry.fillsBefore - w.done))
      (w.entry.pos - BitVec.ofNat 48 ((w.entry.fillsBefore - w.done) * d.ccu.ppl)) true)
    (d.rtk.prev.runs.map spanRun) d h
  generalize d.lineOperation _ _ = x at hl ⊢
  obtain ⟨h1, h2, h3, h4, _, _⟩ := hl
  refine ⟨h1, h2.trans (spanShape_spanRun _), h3, h4, ?_⟩
  have hq : (Work.mk w.entry (w.done + 1)).left = w.entry.replays - (w.done + 1) := rfl
  rw [← hq]
  simp only [Bool.and_eq_true, decide_eq_true_eq]

/-- The replays that an entry has left: a FILL entry ends with them, a LINE entry is then ready for its line. -/
theorem Device.replayAll_rtk (t : Terms) : ∀ (n : Nat) (d : Device) (w : Work), d.rtk.cur = ⟨[], []⟩ →
    d.rtk.work = some w → n = w.left →
    (Device.replayAll t n d).rtk.cur = ⟨[], []⟩ ∧
      (Device.replayAll t n d).rtk.linesProcessed = d.rtk.linesProcessed ∧
      spanShape (Device.replayAll t n d).rtk.prev.runs = spanShape d.rtk.prev.runs ∧
      (w.entry.content = .fill → 0 < n → (Device.replayAll t n d).rtk.work = none ∧
        (Device.replayAll t n d).rtk.prevLine = some ⟨w.entry.line, w.entry.pos⟩) ∧
      (w.entry.content ≠ .fill → ∃ v, (Device.replayAll t n d).rtk.work = some v ∧ v.entry = w.entry)
  | 0, _, w, h, hw, _ => ⟨h, rfl, rfl, fun _ k => absurd k (Nat.lt_irrefl 0), fun _ => ⟨w, hw, rfl⟩⟩
  | n + 1, d, w, h, hw, hn => by
    have hl : ¬ w.left = 0 := by omega
    have e : Device.replayAll t (n + 1) d = Device.replayAll t n (d.replayOne t w) := by
      rw [Device.replayAll, hw]
      dsimp only
      rw [if_neg hl]
    rw [e]
    obtain ⟨f1, f2, f3, f4, f5⟩ := Device.replayOne_rtk t w d h
    generalize d.replayOne t w = x at f1 f2 f3 f4 f5 ⊢
    unfold Work.left at hn
    by_cases hlast : w.entry.content = .fill ∧ w.entry.replays - (w.done + 1) = 0
    · have hn0 : n = 0 := by omega
      subst hn0
      rw [if_pos hlast] at f5
      have hz : w.entry.fillsBefore - w.done = 0 := by
        have hr : w.entry.replays = w.entry.fillsBefore + 1 := by
          unfold QueueEntry.replays
          rw [hlast.1]
        omega
      rw [hz] at f1
      refine ⟨f3, f4, f2, fun _ _ => ⟨f5, ?_⟩, fun hne => absurd hlast.1 hne⟩
      unfold Device.replayAll
      simpa using f1
    · rw [if_neg hlast] at f5
      obtain ⟨g1, g2, g3, g4, g5⟩ := Device.replayAll_rtk t n x { w with done := w.done + 1 } f3 f5
        (by simp only [Work.left]; omega)
      refine ⟨g1, g2.trans f4, g3.trans f2, fun hf _ => g4 hf ?_, g5⟩
      have : ¬ w.entry.replays - (w.done + 1) = 0 := fun hc => hlast ⟨hf, hc⟩
      omega

/-- An entry performed to its end (R47, R48): the previous line is its line, and the tracker is between lines. -/
theorem Device.performEntry_rtk (t : Terms) (d : Device) (w : Work) (h : d.rtk.cur = ⟨[], []⟩)
    (hw : d.rtk.work = some w) (hf : w.entry.content = .fill → w.done < w.entry.replays) :
    (d.performEntry t).rtk.work = none ∧ (d.performEntry t).rtk.cur = ⟨[], []⟩ ∧
      (d.performEntry t).rtk.prevLine = some ⟨w.entry.line, w.entry.pos⟩ ∧
      spanShape (d.performEntry t).rtk.prev.runs =
        (match w.entry.content with
          | .line _ runs => runs.map fun r => (r.first, r.last, r.width)
          | .fill => spanShape d.rtk.prev.runs) ∧
      (d.performEntry t).rtk.linesProcessed =
        (match w.entry.content with
          | .line _ _ => sat16 d.rtk.linesProcessed 1
          | .fill => d.rtk.linesProcessed) := by
  have e : d.performEntry t = (Device.replayAll t w.left d).performLine t := by
    unfold Device.performEntry
    rw [hw]
  rw [e]
  obtain ⟨g1, g2, g3, g4, g5⟩ := Device.replayAll_rtk t w.left d w h hw rfl
  generalize Device.replayAll t w.left d = x at g1 g2 g3 g4 g5 ⊢
  cases hc : w.entry.content with
  | fill =>
    obtain ⟨a, b⟩ := g4 hc (by have := hf hc; unfold Work.left; omega)
    have ex : x.performLine t = x := by
      unfold Device.performLine
      rw [a]
    rw [ex]
    exact ⟨a, g1, b, g3, g2⟩
  | line st runs =>
    obtain ⟨v, hv, he⟩ := g5 (by rw [hc]; exact EntryContent.noConfusion)
    have hl := Device.lineOperation_rtk (x.lineContext t w.entry.line w.entry.pos false) runs x g1
    unfold Device.performLine
    rw [hv]
    dsimp only
    rw [he, hc]
    dsimp only
    generalize x.lineOperation _ _ = y at hl ⊢
    obtain ⟨h1, h2, h3, h4, _, _⟩ := hl
    refine ⟨rfl, h3, h1, h2, h4.trans ?_⟩
    rw [← g2]
    rfl

theorem Device.performEntry_touches (t : Terms) (d : Device) :
    Touches [.hev, .sth, .pku, .rtk, .lnk, .dec, .lct] d (d.performEntry t) := by
  unfold Device.performEntry
  split
  · exact ((Device.replayAll_touches _ _ d).comp (Device.performLine_touches _ _)).weaken rfl
  · exact Touches.refl _ d

/-- What the tracker does between lines keeps its present line empty. -/
theorem Device.walkPending_cur : ∀ (n : Nat) (d : Device), d.rtk.cur = ⟨[], []⟩ → (d.walkPending n).rtk.cur = ⟨[], []⟩
  | 0, _, h => h
  | n + 1, d, h => by
    unfold Device.walkPending
    split
    · refine Device.walkPending_cur n _ ?_
      rw [Device.offerWalk_rtk d]
      exact h
    · exact h

theorem Device.flushRegions_cur (d : Device) (h : d.rtk.cur = ⟨[], []⟩) : d.flushRegions.rtk.cur = ⟨[], []⟩ := by
  have hcl : ∀ (l : Word32) (k : Rtk) (i : Nat), k.tableOnly (k.closeGap l i) := by
    intro l k i
    unfold Rtk.closeGap
    split <;> rfl
  unfold Device.flushRegions
  dsimp only
  generalize d.rtk.flushLine = l
  have t : d.rtk.tableOnly (d.rtk.stage6 l) := Rtk.tableOnly_fold (hcl l) _ _
  have hw := Device.offerWalk_rtk { d with rtk := (d.rtk.stage6 l).stage7 true }
  have hc : ((d.rtk.stage6 l).stage7 true).cur = ⟨[], []⟩ := by
    show (d.rtk.stage6 l).cur = _
    rw [t]
    exact h
  generalize (d.rtk.stage6 l).stage7 true = m at hw hc ⊢
  generalize Device.offerWalk { d with rtk := m } = x at hw ⊢
  rw [hw]
  exact hc

theorem Device.serveOldest_cur (d : Device) (h : d.rtk.cur = ⟨[], []⟩) : d.serveOldest.rtk.cur = ⟨[], []⟩ := by
  have hp : ∀ (w : Waiting) (d : Device), d.rtk.cur = ⟨[], []⟩ → (d.performWaiting w).2.rtk.cur = ⟨[], []⟩ := by
    intro w d h
    unfold Device.performWaiting Device.performFlush Device.performLineReset Device.performReadRegions
    repeat' split
    all_goals first
      | exact h
      | exact Device.flushRegions_cur d h
      | rfl
  unfold Device.serveOldest
  split
  · exact h
  · rename_i w rest _
    unfold Device.serve
    dsimp only
    have h2 := hp w { d with rtk := { d.rtk with waiting := rest } } h
    generalize (Device.performWaiting w _).2 = x at h2 ⊢
    generalize Reply.message _ _ = m
    have := Device.placeReply_touches m { x with dec := { x.dec with reservations := x.dec.reservations - 1 } } .rtk (by decide)
    rw [show _ = _ from this]
    exact h2

theorem Device.settleFor_cur : ∀ (n : Nat) (d : Device), d.rtk.cur = ⟨[], []⟩ → (d.settleFor n).rtk.cur = ⟨[], []⟩
  | 0, d, h => Device.walkPending_cur 65 d h
  | n + 1, d, h => by
    unfold Device.settleFor
    dsimp only
    split
    · exact Device.walkPending_cur 65 d h
    · exact Device.settleFor_cur n _ (Device.serveOldest_cur _ (Device.walkPending_cur 65 d h))

theorem Device.settle_cur (d : Device) (h : d.rtk.cur = ⟨[], []⟩) : d.settle.rtk.cur = ⟨[], []⟩ :=
  Device.settleFor_cur _ d h

/-- The taking of the oldest queue entry (R26). -/
theorem Device.takeEntry_rtk {d : Device} {e : QueueEntry} {rest : List QueueEntry} (h : d.lcn.queue = e :: rest) :
    d.takeEntry.rtk = { d.rtk with work := some ⟨e, 0⟩ } := by
  unfold Device.takeEntry
  rw [h]
  dsimp only
  generalize hx : (Device.mk _ _ _ _ _ _ _ _ _ _ _ _) = x
  have hp : x.placeFillEntry.rtk = x.rtk := Device.placeFillEntry_touches x .rtk (by decide)
  rw [hp, ← hx]

end Sys2Proof.Machine
end

