-- ==== Sys2Proof/Tests/Slice0.lean ====
section
/-!
SUPPORT. The model's own tests: an ill-formed command for each check of Instr.wf, values that the spec works out, one small step
each for some commands, and for every statement with hypotheses a state and operands that meet them together.
-/

open Sys2Proof Sys2Proof.Machine

namespace Sys2Proof.Tests

/-! ### Ill-formed commands are refused -/

def longPayload : List Byte := List.replicate 257 0

theorem test_long_payload : payloadFits longPayload = false := by
  rw [payloadFits, longPayload, List.length_replicate]
  rfl

theorem test_wf_refuses_long_frames :
    Instr.wf (.lineFrame 0 longPayload) = false ∧ Instr.wf (.barReplyFrame 0x33 0 longPayload) = false ∧
      Instr.wf (.barForwardFrame 0 longPayload) = false ∧ Instr.wf (.badTargetFrame 9 0 longPayload) = false ∧
      Instr.wf (.loadPart longPayload) = false ∧ Instr.wf (.unknownRequest 0x77 longPayload) = false := by
  simp only [Instr.wf, test_long_payload, Bool.and_false, and_self]

theorem test_wf_refuses_a_line_frame_as_bar_reply : Instr.wf (.barReplyFrame 0x10 0 []) = false := by decide

theorem test_wf_refuses_the_targets_of_the_part_and_the_bar :
    Instr.wf (.badTargetFrame 1 0 []) = false ∧ Instr.wf (.badTargetFrame 2 0 []) = false := by decide

theorem test_wf_refuses_a_good_frame_as_discarded :
    Instr.wf (.discardedFrame .downstream (0x55 :: Frame.wire ⟨0x40, 1, []⟩)) = false := by
  set_option maxRecDepth 20000 in decide

theorem test_wf_refuses_bytes_beyond_the_longest_frame :
    Instr.wf (.discardedFrame .upstream (List.replicate 264 0)) = false := by
  rw [Instr.wf, bytesBad, List.length_replicate]
  rfl

def longData : List Byte := List.replicate 4079 0

theorem test_long_data : dataFits longData = false := by
  rw [dataFits, longData, List.length_replicate]
  rfl

theorem test_wf_refuses_load_data_beyond_16_parts :
    Instr.wf (.loadWidths 0 longData) = false ∧ Instr.wf (.loadMask 0 longData) = false ∧
      Instr.wf (.loadConditioning 0 longData) = false ∧ Instr.wf (.loadTerms 0 longData) = false ∧
      Instr.wf (.loadHeads 0 longData) = false ∧ Instr.wf (.loadInputs 0 longData) = false ∧
      Instr.wf (.loadBadTable 9 0 longData) = false := by
  simp only [Instr.wf, test_long_data, Bool.and_false, and_self]

theorem test_wf_refuses_tables_and_areas_that_exist :
    Instr.wf (.loadBadTable 3 0 []) = false ∧ Instr.wf (.readBadArea 10 0) = false := by decide

theorem test_wf_refuses_the_other_word_and_the_other_direction :
    Instr.wf (.setFlagsControl 1 0) = false ∧ Instr.wf (.clearFlagsControl 1 0) = false ∧
      Instr.wf (.headEnableOn 0 0) = false := by decide

theorem test_wf_refuses_a_legal_message_as_unknown : Instr.wf (.unknownRequest 0x40 []) = false := by decide

/-! ### Values that the spec works out -/

/-- The check value of the CRC of R194 over the nine bytes 31 to 39 hex. -/
theorem test_crc_of_nine_digits : crc16 [0x31, 0x32, 0x33, 0x34, 0x35, 0x36, 0x37, 0x38, 0x39] = 0x29B1 := by
  set_option maxRecDepth 20000 in decide

/-- A number of two steps under the three rounding modes (R81). -/
theorem test_rounding : roundSteps .down 25 10 = 2 ∧ roundSteps .nearest 25 10 = 3 ∧ roundSteps .up 21 10 = 3 ∧
    roundSteps .nearest 24 10 = 2 := by decide

/-- The FAU of one square foot at each resolution (R97). -/
theorem test_square_foot : fauPerStep .ft2 .whole = some (100 * 60884936294400) ∧
    fauPerStep .ft2 .quarter = some (25 * 60884936294400) ∧ fauPerStep .ft2 .tenth = some (10 * 60884936294400) := by decide

/-- A span of FILL cells between leather and background is background; at the edge it follows its one neighbour (R31). -/
theorem test_mask_fill : applyMask [2, 0, 2, 2, 0, 1, 0] [false, true, false, true, false, true, true] =
    [true, true, false, false, false, false, true] := by decide

/-- Runs, a bridge of 2 cells, and specks of 1 cell (R32, R33). -/
theorem test_bridge_and_speck :
    runsOfRow 0 [true, false, false, true, true, false, false, false, true] = [(0, 0), (3, 4), (8, 8)] ∧
      dropSpecks 1 (bridgeRuns 2 [(0, 0), (3, 4), (8, 8)]) = [(0, 4)] := by decide

/-- A time-out of 2 ms started between ticks is due at the third tick (R16). -/
theorem test_timeout_between_ticks : ((Timer.start 2 false).after 2).due = false ∧ ((Timer.start 2 false).after 3).due = true := by
  decide

/-- The wheels for 137 quarters: 34 and one quarter, with leading blanks; and the stars (R118 to R120). -/
theorem test_wheels : wheelTarget 3 137 .quarter false = ⟨3, 10, 10, 3, 4, 12⟩ ∧
    wheelTarget 3 0 .whole true = ⟨3, 11, 11, 11, 11, 11⟩ := by decide

/-- A hole closed against its root: the gap's area and the closing line join the root's list (R61). -/
theorem test_hole_recorded :
    let gap : Region := { Region.cleared .gap 1 with state := .opened, area := 7 }
    let root : Region := { Region.cleared .leather 0 with state := .opened, area := 50 }
    (root.addHole 9 0 gap).holes = [⟨7, 9⟩] ∧ (root.addHole 9 0 gap).kind = .leather ∧ (root.addHole 9 0 gap).area = 50 := by
  decide

/-! ### Small states -/

/-- A part in RUNNING over a store of no words, so that its tables cost nothing to evaluate. -/
def base : Device := { Device.reset ⟨[], none, none, none⟩ 0 with lct := { Lct.reset with lineState := .running } }

def inLine (l : LineState) : Device := { base with lct := { base.lct with lineState := l } }

/-- A state with nothing waiting. -/
def at' (d : Device) : State := ⟨d, []⟩

/-- Trade terms in square feet, with no minimum hide area. -/
def terms : Terms :=
  ⟨.ft2, .whole, .down, 0, 0, 0, 1, 0, .skip, List.replicate 8 ⟨0, 302978, 3, 9, some 0, 2⟩⟩

def withTerms (d : Device) : Device := { d with hev := { d.hev with terms := some terms } }

def entry : StampEntry := ⟨1, 0, 5, ⟨3, 10, 10, 10, 10, 1⟩, 9⟩

def withHead (h : Head) (d : Device) : Device := d.setHead 0 h

/-- A time-out that has run its length. -/
def dueTimer : Timer := some ⟨0, false⟩

def frame : Frame := ⟨0x33, 2, [7]⟩

theorem test_states_are_in_service :
    base.InService ∧ (inLine .idle).InService ∧ (inLine .paused).InService ∧ (inLine .faulted).InService :=
  ⟨⟨rfl, by decide⟩, ⟨rfl, by decide⟩, ⟨rfl, by decide⟩, ⟨rfl, by decide⟩⟩

theorem test_states_take_requests :
    base.ReadyFor ∧ (inLine .idle).ReadyFor ∧ (inLine .paused).ReadyFor ∧ (inLine .faulted).ReadyFor :=
  ⟨⟨⟨rfl, by decide⟩, by decide, rfl⟩, ⟨⟨rfl, by decide⟩, by decide, rfl⟩, ⟨⟨rfl, by decide⟩, by decide, rfl⟩,
    ⟨⟨rfl, by decide⟩, by decide, rfl⟩⟩

/-! ### Steps -/

theorem test_idle_step : step (at' base) = .next (at' base) := rfl

theorem test_no_word_is_a_command : decodeTableWord 16 0xFFFF = none ∧ State.withFetchWord State.reset 16 5 = State.reset :=
  ⟨rfl, rfl⟩

/-- A forward pulse at the mark moves both (R7). -/
theorem test_forward_pulse : (base.pulse .forward).bpu.position = 1 ∧ (base.pulse .forward).bpu.mark = 1 ∧
    (base.pulse .forward).bpu.divider = 4094 := by decide

/-- The first reverse pulse raises REVERSE (R6). -/
theorem test_reverse_pulse : (base.pulse .reverse).bpu.direction = .reverse ∧
    (base.pulse .reverse).lct.latch .reverse = .pending := by decide

/-- STOP in RUNNING pauses the line with cause STOP (R160). -/
theorem test_stop : base.requestStop.1 = ⟨.ok, 0, [3]⟩ ∧ base.requestStop.2.lct.lineState = .paused ∧
    base.requestStop.2.lct.haltCause = .stop := by decide

/-- START in IDLE without a valid set is refused with CAL_INVALID (R159). -/
theorem test_start_refused : (inLine .idle).requestStart.1 = ⟨.wrongState, 2, []⟩ := by decide

/-- An emergency stop faults the line and raises ESTOP (R163). -/
theorem test_fault : (base.faultLine false).lct.lineState = .faulted ∧ (base.faultLine false).lct.haltCause = .estop := by
  decide

/-- A crossed entry of an idle head is missed late and leaves its queue (R131). -/
theorem test_missed_late :
    let d := withHead { Head.reset with state := .idle, queue := [entry] } { base with bpu := { base.bpu with position := 5 } }
    (Device.presentPosition .forward d).head 0 = { Head.reset with state := .idle } := by decide

/-! ### States for the statements' hypotheses -/

theorem inService_of {d : Device} (h : d.powered = true ∧ d.lct.lineState ≠ .init) : d.InService := ⟨h.1, h.2⟩

theorem readyFor_of {d : Device} (h : (d.powered = true ∧ d.lct.lineState ≠ .init) ∧
    d.lnk.replyFifo.length + d.dec.reservations < 4 ∧ d.dec.owed = []) : d.ReadyFor := ⟨inService_of h.1, h.2.1, h.2.2⟩

def onBpu (f : Bpu → Bpu) (d : Device) : Device := { d with bpu := f d.bpu }
def onLcn (f : Lcn → Lcn) (d : Device) : Device := { d with lcn := f d.lcn }
def onRtk (f : Rtk → Rtk) (d : Device) : Device := { d with rtk := f d.rtk }
def onHev (f : Hev → Hev) (d : Device) : Device := { d with hev := f d.hev }
def onLct (f : Lct → Lct) (d : Device) : Device := { d with lct := f d.lct }
def onCcu (f : Ccu → Ccu) (d : Device) : Device := { d with ccu := f d.ccu }
def onLnk (f : Lnk → Lnk) (d : Device) : Device := { d with lnk := f d.lnk }

def freeRunning (left : Nat) : Device :=
  onLct (fun l => { l with control := { l.control with freeRun := true } }) (onBpu (fun b => { b with freeRunLeft := left }) base)

/-- Line n is outstanding, line n + 1 after it. -/
def twoLines : Device := onBpu (fun b => { b with outstanding := [⟨7, 0⟩, ⟨8, 5⟩], nextLine := 9 }) base

def withDivider (n : Nat) (d : Device) : Device := onBpu (fun b => { b with divider := n }) d

/-- A LINE payload of line 8 with one run of cells 3 to 9. -/
def linePayload : List Byte := [0, 0, 0, 8, 0, 0, 0, 1, 0, 3, 0, 9]

def queued (content : EntryContent) (fills : Nat) : QueueEntry := ⟨content, 8, 5, fills⟩

def withQueue (q : List QueueEntry) (d : Device) : Device := onLcn (fun c => { c with queue := q }) d

def aFill : QueueEntry := queued .fill 255
def aLine : QueueEntry := queued (.line .clean [⟨3, 9, 7000⟩]) 1

def withWork (e : QueueEntry) (done : Nat) (d : Device) : Device := onRtk (fun k => { k with work := some ⟨e, done⟩ }) d

/-! ### Hypotheses: the machine, power and INIT -/

theorem test_hypotheses_EveryCommandAnswersNextAndOutOfServiceIdles :
    whileRunning .query = true ∧ Instr.query ≠ .tick ∧ ¬ State.reset.dev.InService :=
  ⟨rfl, by decide, fun h => h.2 rfl⟩

/-- A factory part with a commit in flight, whose erase is under way. -/
def cutPart : Device := onCcu (fun c => { c with committing := true, stage := .erasing }) State.reset.dev

/-- A set of legal words (R177). -/
def legalSet : List (Option Nat) :=
  List.replicate 1600 (some 1000) ++ (List.replicate 1600 (some 0) ++ List.replicate 7 (some 1))

/-- A part in IDLE with a commit in flight whose words are all written, its seal not yet. -/
def writtenPart : Device :=
  onCcu (fun c => { c with
    committing := true
    stage := .writing 3207
    working := legalSet
    store := { c.store with setArea := legalSet }
    segments := List.replicate 16 .loaded }) (onLct (fun l => { l with lineState := .idle }) State.reset.dev)

theorem test_hypotheses_PowerEventsSetEveryBlockAndKeepTheStore :
    base.powered = true ∧ base.ccu.committing = false ∧ cutPart.ccu.committing = true ∧
      ({ base with powered := false } : Device).powered = false := ⟨rfl, rfl, rfl, rfl⟩

theorem legalSet_length : legalSet.length = 3207 := by
  rw [legalSet, List.length_append, List.length_append, List.length_replicate, List.length_replicate, List.length_replicate]

/-- A list of three constant stretches, read at one place. -/
theorem stretches_at (a b c : Nat) (x y z : Option Nat) (i : Nat) (h : i < a + b + c) :
    (List.replicate a x ++ (List.replicate b y ++ List.replicate c z))[i]? =
      some (if i < a then x else if i < a + b then y else z) := by
  by_cases h1 : i < a
  · rw [List.getElem?_append_left (by rw [List.length_replicate]; exact h1), List.getElem?_replicate, if_pos h1, if_pos h1]
  · rw [List.getElem?_append_right (by rw [List.length_replicate]; omega), List.length_replicate, if_neg h1]
    by_cases h2 : i < a + b
    · rw [List.getElem?_append_left (by rw [List.length_replicate]; omega), List.getElem?_replicate, if_pos (by omega), if_pos h2]
    · rw [List.getElem?_append_right (by rw [List.length_replicate]; omega), List.length_replicate, List.getElem?_replicate,
        if_pos (by omega), if_neg h2]

theorem legalSet_legal (i : Nat) (h : i < 3207) : legalAt legalSet i := by
  unfold legalAt
  rw [legalSet, stretches_at 1600 1600 7 _ _ _ i h]
  by_cases h1 : i < 1600
  · exact ⟨1000, by rw [if_pos h1], by unfold wordLegal; rw [if_pos (by omega)]; rfl⟩
  · by_cases h2 : i < 3200
    · exact ⟨0, by rw [if_neg h1, if_pos h2], by unfold wordLegal; rw [if_neg (by omega), if_pos (by omega)]; rfl⟩
    · obtain ⟨k, rfl⟩ : ∃ k, i = 3200 + k := ⟨i - 3200, by omega⟩
      refine ⟨1, by rw [if_neg h1, if_neg h2], ?_⟩
      have : k = 0 ∨ k = 1 ∨ k = 2 ∨ k = 3 ∨ k = 4 ∨ k = 5 ∨ k = 6 := by omega
      rcases this with rfl | rfl | rfl | rfl | rfl | rfl | rfl <;> decide

theorem reset_sized : State.reset.dev.Sized where
  regions := by decide
  classes := fun _ h => nomatch h
  records := by decide
  headTable := fun _ h => nomatch h
  heads := by decide
  packs := by decide
  inputTable := by decide
  inputs := by decide
  latches := by decide
  mask := by decide
  setArea := List.length_replicate
  active := List.length_replicate
  prefixSums := List.length_replicate
  working := List.length_replicate
  segments := by decide

theorem reset_storeInStage : State.reset.dev.StoreInStage :=
  ⟨⟨fun _ => rfl, fun _ => rfl⟩, (nomatch ·), (nomatch ·), fun _ h => (nomatch h)⟩

theorem cutPart_storeInStage : cutPart.StoreInStage :=
  ⟨⟨(nomatch ·), (nomatch ·)⟩, fun _ => rfl, fun _ => List.mem_replicate.2 ⟨by decide, rfl⟩, fun _ h => (nomatch h)⟩

theorem writtenPart_storeInStage : writtenPart.StoreInStage := by
  refine ⟨⟨(nomatch ·), (nomatch ·)⟩, fun _ => rfl, (nomatch ·), fun n h => ?_⟩
  obtain rfl : 3207 = n := StoreStage.writing.inj h
  refine ⟨Nat.le_of_eq legalSet_length.symm, ?_⟩
  show legalSet = firstWords 3207 legalSet
  rw [← legalSet_length, firstWords_all]

theorem writtenPart_setsLegal : writtenPart.SetsLegal where
  active := (nomatch ·)
  segments := fun t n hn _ i _ h => legalSet_legal i (by
    cases t <;> simp only [CalTable.start, CalTable.words, CalTable.segments] at h hn
    · split at h <;> omega
    · omega
    · omega)
  committing := fun _ => by decide
  divider := by decide
  rate := by decide

/-- A commit cut off while it erases, and one with every word written; the stages of the store. -/
theorem test_hypotheses_CutCommitLeavesNoValidStore :
    (cutPart.powered = true ∧ cutPart.ccu.committing = true ∧ cutPart.Sized ∧ cutPart.StoreInStage ∧
      cutPart.ccu.store.auditCount = cutPart.ccu.audit) ∧
      (writtenPart.powered = true ∧ writtenPart.ccu.committing = true ∧ writtenPart.Sized ∧ writtenPart.StoreInStage ∧
        writtenPart.ccu.store.auditCount = writtenPart.ccu.audit ∧ writtenPart.ccu.stage = .writing 3207 ∧
        writtenPart.SetsLegal) ∧
      (cutPart.ccu.store.setArea.length = 3207 ∧ cutPart.ccu.working.length = 3207 ∧ cutPart.ccu.stage = .erasing) ∧
      writtenPart.ccu.store.setArea.length = 3207 ∧ writtenPart.ccu.working.length = 3207 ∧ 3207 ≤ 3207 ∧
      State.reset.dev.ccu.stage = .resting :=
  ⟨⟨rfl, rfl, { reset_sized with }, cutPart_storeInStage, rfl⟩,
    ⟨rfl, rfl, { reset_sized with setArea := legalSet_length, working := legalSet_length }, writtenPart_storeInStage, rfl, rfl,
      writtenPart_setsLegal⟩,
    ⟨List.length_replicate, List.length_replicate, rfl⟩, legalSet_length, legalSet_length, Nat.le_refl _, rfl⟩

theorem test_hypotheses_EndOfInitLoadsTheStore :
    State.reset.dev.powered = true ∧ State.reset.dev.lct.lineState = .init := ⟨rfl, rfl⟩

/-! ### Hypotheses: the belt position unit and the line conditioner -/

theorem test_hypotheses_PulseSourcesGiveTheirPulses :
    base.InService ∧ base.lct.control.freeRun = false ∧ base.bpu.encA = false ∧ base.bpu.encB = false ∧
      (freeRunning 1).InService ∧ (freeRunning 1).lct.lineState = .running ∧ (freeRunning 1).lct.control.freeRun = true ∧
      0 < (freeRunning 1).bpu.freeRunLeft ∧ (freeRunning 0).bpu.freeRunLeft = 0 :=
  ⟨inService_of (by decide), by decide, by decide, by decide, inService_of (by decide), by decide⟩

/-- The four edges of one phase each, from LOW and HIGH, and the changes of both or of none. -/
theorem test_hypotheses_encoder_edges :
    (true ≠ false ∧ false = false ∧ true ≠ false) ∧ (false = false ∧ true ≠ false ∧ ¬ true = false) ∧
      ((true ≠ false) ↔ (true ≠ false)) ∧ ((false ≠ false) ↔ (false ≠ false)) := by decide

theorem test_hypotheses_NewBeltPulseCountsAndTriggers :
    (base.lct.lineState = .running ∧ base.bpu.position = base.bpu.mark ∧ 1 < base.bpu.divider) ∧
      (withDivider 1 twoLines).bpu.divider = 1 ∧ (withDivider 1 twoLines).bpu.outstanding.length = 2 ∧
      (withDivider 1 twoLines).lct.lineState = .running ∧ (withDivider 1 base).bpu.outstanding.length ≤ 1 ∧
      (inLine .paused).lct.lineState ≠ .running := by decide

theorem test_hypotheses_TickRunsUptimeAndEveryTimeoutToItsLength :
    base.powered = true ∧ ({ base with powered := false } : Device).powered = false ∧ 1 ≤ 1 := ⟨rfl, rfl, by decide⟩

theorem test_hypotheses_PauseRetirementDeclaresEveryLine :
    let d := onBpu (fun b => { b with pauseTimer := dueTimer }) twoLines
    d.InService ∧ d.bpu.pauseTimer.due = true ∧ d.bpu.outstanding ≠ [] ∧ base.bpu.pauseTimer.due = false :=
  ⟨inService_of (by decide), by decide⟩

theorem test_hypotheses_LineFrameThatIsNotTaken :
    (inLine .idle).InService ∧ (inLine .idle).lct.lineState = .idle ∧ base.InService ∧ base.lct.lineState ≠ .idle ∧
      (linePayload.take 7).length < 8 ∧ 8 ≤ (linePayload.take 8).length ∧
      (∀ o ∈ twoLines.bpu.outstanding, o.line ≠ lineNumberOf [0, 0, 0, 6, 0, 0, 0, 0]) :=
  ⟨inService_of (by decide), by decide, inService_of (by decide), by decide⟩

/-- With an older line before it, and as a well-formed frame, one that is not, one with OVERFLOW, and over a full queue. -/
theorem test_hypotheses_LineFrameForAnOutstandingLine :
    twoLines.InService ∧ twoLines.lct.lineState ≠ .idle ∧ 8 ≤ linePayload.length ∧
      twoLines.bpu.outstanding = [⟨7, 0⟩] ++ ⟨lineNumberOf linePayload, 5⟩ :: [] ∧
      (∀ o ∈ [(⟨7, 0⟩ : Outstanding)], o.line ≠ lineNumberOf linePayload) ∧
      parseLine linePayload = some (.clean, [(3, 9)]) ∧ lineOverflow linePayload = false ∧
      parseLine [0, 0, 0, 8, 3, 0, 0, 0] = none ∧ lineOverflow [0, 0, 0, 8, 0, 1, 0, 0] = true ∧
      (withQueue [aFill, aFill, aFill, aFill] twoLines).lcn.queue.length = 4 :=
  ⟨inService_of (by decide), by decide⟩

theorem test_hypotheses_MissedLinesAreCountedAndCarriedByFillEntries :
    let full := withQueue [aFill, aFill, aFill, aFill] (onLcn (fun c => { c with trailing := 255 }) base)
    let room := withQueue [aFill] (onLcn (fun c => { c with trailing := 255, overflow := 256 }) base)
    let takes := withQueue [aFill, aFill, aFill] (onLcn (fun c => { c with trailing := 255 }) base)
    (takes.lcn.trailing = 255 ∧ takes.lcn.queue.length < 4 ∧ takes.lcn.overflow < 2 ^ 32 - 1) ∧
      base.lcn.trailing < 254 ∧ (onLcn (fun c => { c with trailing := 254 }) base).lcn.trailing = 254 ∧
      (full.lcn.trailing = 255 ∧ full.lcn.queue.length = 4 ∧ full.lcn.overflow < 2 ^ 32 - 1) ∧
      0 < room.lcn.overflow ∧ room.lcn.queue.length < 4 ∧ 255 ≤ room.lcn.overflow - 1 := by decide

/-- FILL spans at both ends, between, and over the whole row. -/
theorem test_hypotheses_MaskGivesEachCellItsValue :
    [2, 0, 1, 2, 0, 2].length = [true, true, true, false, true, false].length ∧ (∀ m ∈ [2, 0, 1, 2, 0, 2], m ≤ 2) ∧
      (∀ i, 3 ≤ i → i ≤ 3 → [2, 0, 1, 2, 0, 2][i]? = some 2) ∧ [2, 0, 1, 2, 0, 2][3 - 1]? ≠ some 2 ∧
      [2, 0, 1, 2, 0, 2][3 + 1]? ≠ some 2 := by
  refine ⟨rfl, by decide, fun i h g => ?_, by decide, by decide⟩
  have : i = 3 := by omega
  subst this
  rfl

theorem test_hypotheses_RunsBridgingAndSpecksDecideEachCell :
    (∀ r ∈ [(0, 0), (2, 4), (8, 8)], r.1 ≤ r.2) ∧
      [(0, 0), (2, 4), (8, 8)].Pairwise (fun r q : Nat × Nat => r.2 + 2 ≤ q.1) := by decide

/-! ### Hypotheses: the region tracker -/

theorem test_hypotheses_LineOperationPerformsTheEntry :
    let d := withQueue [aLine] (withTerms base)
    let e := withWork aFill 255 (withTerms base)
    d.InService ∧ d.rtk.cur = ⟨[], []⟩ ∧ d.hev.terms = some terms ∧ d.rtk.work = none ∧ d.settle.lcn.queue = aLine :: [] ∧
      (withTerms base).settle.lcn.queue = [] ∧
      e.InService ∧ e.rtk.work = some ⟨aFill, 255⟩ ∧ (aFill.content = .fill → 255 < aFill.replays) ∧
      base.hev.terms = none ∧ (withWork aLine 1 base).rtk.work = some ⟨aLine, 1⟩ ∧ 1 = aLine.replays ∧
      aLine.content = .line .clean [⟨3, 9, 7000⟩] :=
  ⟨inService_of (by decide), by decide, by decide, by decide, by decide, by decide, inService_of (by decide), by decide⟩

theorem test_hypotheses_FillReplaysThePreviousLine :
    let d := withQueue [aLine] (withTerms base)
    let e := withWork aFill 255 (withTerms base)
    (d.InService ∧ d.rtk.cur = ⟨[], []⟩ ∧ d.hev.terms = some terms ∧ d.rtk.work = none ∧
      d.settle.lcn.queue = (⟨aLine, 0⟩ : Work).entry :: [] ∧ 0 < aLine.replays) ∧
      e.InService ∧ e.rtk.cur = ⟨[], []⟩ ∧ e.rtk.work = some ⟨aFill, 255⟩ ∧ 255 < aFill.replays ∧ 255 + 1 = aFill.replays :=
  ⟨⟨inService_of (by decide), by decide⟩, inService_of (by decide), by decide⟩

def waitingRegion (i : Nat) (pos : Position) : Region :=
  { Region.cleared .leather i with state := .closedWait, area := 10, born := pos }

def smallRtk : Rtk := { Rtk.reset with table := [waitingRegion 0 9, waitingRegion 1 4], stack := [], retryPending := true }

theorem test_hypotheses_OfferWalkOffersEveryWaitingEntry :
    let d := onRtk (fun _ => smallRtk) (withTerms base)
    d.InService ∧ d.rtk.work = none ∧ d.rtk.retryPending = true ∧ base.rtk.retryPending = false ∧
      (∀ i ∈ smallRtk.walkOrder, ((smallRtk.region i).born - 0).toNat < 2 ^ 47) ∧
      0 < d.rtk.table.length ∧ (d.evaluate (d.rtk.region 0)).1 ≠ .refuse ∧
      ((onHev (fun h => { h with store := [] }) d).evaluate (d.rtk.region 0)).1 = .refuse :=
  ⟨inService_of (by decide), by set_option maxRecDepth 20000 in decide⟩

def openRegion (kind : RegionKind) (i : Nat) : Region := { Region.cleared kind i with state := .opened, area := 7 }

/-- A root (index 0) around a gap (index 1) of the previous line, covered on the current one. -/
def holeRtk (holes : List Hole) : Rtk :=
  { Rtk.reset with
    table := [{ openRegion .leather 0 with holes := holes }, openRegion .gap 1]
    stack := [2]
    prev := ⟨[⟨0, 4, 5, .entry 0⟩, ⟨8, 9, 2, .entry 0⟩], [⟨5, 7, 3, .entry 1⟩]⟩
    cur := ⟨[⟨0, 9, 10, .entry 0⟩], []⟩ }

/-- The hole list with room and full, and a closing gap that is no hole of the root since the tops are open. -/
theorem test_hypotheses_HoleTestAndRecording :
    let k := holeRtk (List.replicate 11 ⟨1, 1⟩)
    let full := holeRtk (List.replicate 12 ⟨1, 1⟩)
    (∀ r ∈ k.prev.runs, r.first ≤ r.last) ∧ k.prev.runs.Pairwise (fun r q => r.last + 1 < q.first) ∧
      (∀ r ∈ k.cur.runs, r.first ≤ r.last) ∧ k.cur.runs.Pairwise (fun r q => r.last + 1 < q.first) ∧
      (∀ g ∈ k.prev.gaps, g.first ≤ g.last) ∧ 1 < k.table.length ∧ k.holeRoot 1 = some 0 ∧ 0 ≠ 1 ∧ 0 < k.table.length ∧
      (k.region 0).holes.length < 12 ∧ full.holeRoot 1 = some 0 ∧ 12 ≤ (full.region 0).holes.length ∧
      ({ k with cur := ⟨[], []⟩ } : Rtk).holeRoot 1 = none ∧ base.rtk.table.length = 64 := by
  set_option maxRecDepth 20000 in decide

def aContext : LineContext := ⟨20, 100, false, [], 1024, false, 2, 3⟩

theorem test_hypotheses_RunsOpenContinueMergeAndAccumulate :
    let ring : List Anchor := [⟨18, 9, 4, 90⟩, ⟨19, 9, 4, 95⟩]
    let k : Rtk := { holeRtk [] with table := [{ openRegion .leather 0 with ring := ring }, openRegion .gap 1, openRegion .leather 2] }
    k.stack = 2 :: [] ∧ 2 < k.table.length ∧ ({ k with stack := [] } : Rtk).stack = [] ∧
      ([0, 2] ≠ [] ∧ [0, 2].Nodup) ∧
      (0 ≠ 2 ∧ (k.region 0).parent = 0) ∧
      (k.cur.runs.map Span.label = [.entry 0] ∧ k.root 0 = 0 ∧ (k.cur.runs.map Span.first = [0]) ∧ 3 ≠ 0 ∧ 9 ≠ 1599) ∧
      k.widestRun 0 = some ⟨0, 9, 10, .entry 0⟩ ∧ (k.region 0).ring.length = aContext.setback ∧
      (k.region 2).ring.length < aContext.setback ∧ aContext.minAnchor ≤ 9 ∧
      behind aContext.line 18 + aContext.setback ≤ behind aContext.line (k.region 0).firstLine := by
  set_option maxRecDepth 20000 in decide

/-- Two regions with holes and rings in order, of which one hole closed on the same line and one ring line is in both. -/
def leftPart : Region :=
  { openRegion .leather 0 with
    holes := [⟨5, 10⟩, ⟨6, 15⟩], ring := [⟨18, 9, 4, 90⟩, ⟨19, 9, 4, 95⟩], anchor := some ⟨11, 30, 3, 50⟩ }

def rightPart : Region :=
  { openRegion .leather 2 with
    holes := [⟨7, 15⟩, ⟨8, 16⟩], ring := [⟨19, 20, 40, 95⟩], anchor := some ⟨12, 31, 41, 60⟩, interpolated := 3 }

theorem test_hypotheses_merging :
    (∀ r ∈ [leftPart, rightPart],
      r.holes.Pairwise (fun x y => behind aContext.line y.line ≤ behind aContext.line x.line) ∧
        r.ring.Pairwise fun x y => behind aContext.line y.line < behind aContext.line x.line) ∧
      ({ rightPart with anchor := none } : Region).anchor = none ∧ leftPart.anchor = some ⟨11, 30, 3, 50⟩ := by decide

/-- The loser's hole of the same line comes second, and its wider ring entry and anchor are taken (R53, R54). -/
theorem test_merge :
    let r := leftPart.absorb aContext.line 0 rightPart
    r.holes = [⟨5, 10⟩, ⟨6, 15⟩, ⟨7, 15⟩, ⟨8, 16⟩] ∧ r.ring = [⟨18, 9, 4, 90⟩, ⟨19, 20, 40, 95⟩] ∧
      r.anchor = some ⟨12, 31, 41, 60⟩ ∧ r.interpolated = 3 := by decide

/-! ### Hypotheses: the hide evaluator, the stamp heads and the pack unit -/

def aRecord : HideRecord := base.makeRecord terms (waitingRegion 0 0)

def anAnchor : Anchor := ⟨3, 900, 40, 100⟩

theorem test_hypotheses_EvaluationScrapsRefusesOrTakes :
    let strict : Terms := { terms with minHide := 1 }
    let d := onHev (fun h => { h with store := [some aRecord, none] }) (withTerms base)
    d.hev.terms = some terms ∧ (waitingRegion 0 0).area < strict.minHide * strict.stepFau ∧
      terms.minHide * terms.stepFau ≤ (waitingRegion 0 0).area ∧
      (∀ r ∈ (onHev (fun h => { h with store := [some aRecord] }) d).hev.store, r ≠ none) ∧
      d.hev.store[1]? = some none ∧ (∀ j < 1, ∃ r, d.hev.store[j]? = some (some r)) :=
  ⟨by decide, by decide, by decide, by decide, rfl, fun j h => ⟨aRecord, by
    obtain rfl : j = 0 := by omega
    rfl⟩⟩

/-- A sum within 64 bits and one beyond them; a class that holds the steps. -/
theorem test_hypotheses_RecordCarriesCountedAreaClassAndFlags :
    let big : Region := { waitingRegion 0 0 with area := 2 ^ 64 - 1, holes := [⟨7, 1⟩] }
    let t : Terms := { terms with smallHole := 1 }
    big.area ≤ 2 ^ 64 - 1 ∧ 2 ^ 64 - 1 < big.area + (big.holeTally t.smallHole).filled ∧
      (waitingRegion 0 0).area + ((waitingRegion 0 0).holeTally 0).filled ≤ 2 ^ 64 - 1 ∧
      aRecord.classIndex = some 0 ∧ aRecord.flags.noAnchor = true := by decide

theorem test_hypotheses_RoundedStepsFollowTheRoundingMode :
    0 < 1 ∧ fauPerStep .m2 .hundredth ≠ none ∧ fauPerStep .ft2 .tenth = some (10 * 60884936294400) ∧
      2 ^ 64 - 1 ≤ 2 ^ 64 - 1 := by decide

/-- A head entry that is enabled for all cells: lead margin 10, spacing 20, times 5, 4 and 3 ms. -/
def wideEntry : HeadEntry := ⟨true, 0, 1599, 50, 10, 20, 5, 4, 3⟩

def withTable (d : Device) : Device := { d with sth := { d.sth with table := some (List.replicate 4 wideEntry) } }

def idleHead : Head := { Head.reset with state := .idle }

/-- An entry between two of a queue, one at their position, and one where no neighbour follows (R116, R117). -/
theorem test_hypotheses_admission :
    let at' := fun p : Position => { entry with fire := p }
    let h : Head := { idleHead with queue := [at' 100, at' 200] }
    (withHead h base).sth.heads.length = 4 ∧ ((withHead h base).head 0).state = .idle ∧ base.lct.lineState ≠ .faulted ∧
      (base.head 0).state ≠ .idle ∧ (inLine .faulted).lct.lineState = .faulted ∧
      admissionRefusal 0 wideEntry h 150 = none ∧ 1 ≤ wideEntry.spacing ∧ queueRises h.queue ∧
      splitQueue 150 h.queue = ([at' 100], [at' 200]) ∧ (splitQueue 200 h.queue).2 = [] ∧
      (∀ e ∈ [at' 100, at' 150, at' 200], 0 ≤ posDiff e.fire 100) := by
  unfold queueRises
  decide

theorem test_hypotheses_StampDecisionAndAdmissionTestsComeInOrder :
    let suspect : HideRecord := { aRecord with flags := { aRecord.flags with edge := true } }
    let anchored : HideRecord := { aRecord with anchor := some anAnchor, flags := { aRecord.flags with noAnchor := false } }
    let d := withHead idleHead (withTable base)
    let candidate := fun (d : Device) (n : Fin 4) =>
      (d.headEntry n).enable = true ∧ (d.headEntry n).zoneFirst ≤ anAnchor.cell ∧ anAnchor.cell ≤ (d.headEntry n).zoneLast
    (suspect.flags.suspect = true ∧ terms.suspect = .skip) ∧ (aRecord.flags.suspect = false ∧ aRecord.anchor = none) ∧
      (anchored.flags.suspect = false ∧ anchored.anchor = some anAnchor) ∧ (∀ n, ¬ candidate base n) ∧
      (candidate (withTable base) 0 ∧ ∀ n, ((withTable base).head n).state = .disabled) ∧
      (candidate d 0 ∧ (d.head 0).state ≠ .disabled ∧ (∀ m < 0, candidate d m → (d.head m).state = .disabled)) ∧
      admissionRefusal d.bpu.position (d.headEntry 0) (d.head 0) 150 = none ∧
      admissionRefusal d.bpu.position (d.headEntry 0) (d.head 0) 9 = some .skippedTooLate ∧ anchored.classIndex = some 0 := by
  refine ⟨by decide, by decide, by decide, by decide, by decide, ⟨by decide, by decide, fun m h => absurd h (Nat.not_lt_zero _)⟩,
    by decide⟩

/-- Late at and below the lead margin, committed, near on either side, full, and none of them. -/
theorem test_hypotheses_admission_tests :
    let busy : Head := { idleHead with state := .ready, queue := [{ entry with fire := 100 }] }
    let rising : List StampEntry := [10, 40, 70, 100, 130, 160, 190, 220].map fun p => { entry with fire := p }
    posDiff 9 0 < wideEntry.leadMargin ∧ ¬ posDiff 10 0 < wideEntry.leadMargin ∧
      posDiff 100 100 ≤ 0 ∧ ¬ posDiff 101 100 ≤ 0 ∧ posDiff 119 100 < wideEntry.spacing ∧ ¬ posDiff 120 100 < wideEntry.spacing ∧
      admissionRefusal 0 wideEntry busy 100 = some .skippedOrder ∧
      admissionRefusal 0 wideEntry busy 119 = some .skippedCrowded ∧ admissionRefusal 0 wideEntry busy 120 = none ∧
      admissionRefusal 0 wideEntry { idleHead with queue := rising } 300 = some .skippedCrowded ∧
      admissionRefusal 0 wideEntry { idleHead with queue := rising.take 7 } 300 = none := by decide

theorem test_hypotheses_DecidedOutcomeLeavesQueueAndReportsRecord :
    let d := onHev (fun h => { h with store := [some aRecord] }) base
    let full := onLnk (fun l => { l with reportFifo := List.replicate 32 frame }) d
    d.record 0 = some aRecord ∧ Disposition.stamped ≠ .pending ∧ d.reportRoom = true ∧ full.reportRoom = false ∧
      d.sth.heads.length = 4 ∧
      ((withHead { idleHead with queue := [entry] } base).head 0).queue = entry :: [] ∧ base.lct.lineState ≠ .faulted ∧
      (inLine .faulted).lct.lineState = .faulted ∧ (base.head 1).queue = [] := by decide

theorem test_hypotheses_WheelsAndShiftWordCarryTheStamp :
    15 ≤ 15 ∧ 39999 ≤ Resolution.quarter.capacity ∧ Resolution.quarter.capacity < 40000 ∧
      99999 ≤ Resolution.whole.capacity ∧ Resolution.whole.capacity < 100000 ∧ 9999 ≤ Resolution.tenth.capacity ∧
      Resolution.tenth.capacity < 10000 ∧ 9999 ≤ Resolution.hundredth.capacity ∧ Resolution.hundredth.capacity < 10000 := by
  decide

def inState (state : HeadState) (d : Device) : Device :=
  withHead { Head.reset with state := state, queue := [entry], timer := dueTimer, strikeHigh := state == .striking } d

/-- The readback of a stamp set right, one that is jammed, and one that differs; on a head that has used its retry and not. -/
theorem test_hypotheses_SetTimeExpiryJudgesTheReadback :
    let d := inState .setting base
    let good : Word32 := entry.wheels.word ++ 1#4 ++ 2#4
    let isMatch := fun w : Word32 => w.extractLsb' 8 24 = entry.wheels.word ∧
      w.extractLsb' 4 4 = entry.hide.extractLsb' 0 4 ∧ w.getLsbD 1 = true ∧ w.getLsbD 0 = false
    d.InService ∧ d.sth.heads.length = 4 ∧ (d.head 0).state = .setting ∧ (d.head 0).timer.due = true ∧
      (d.head 0).queue = entry :: [] ∧ isMatch good ∧ good.getLsbD 3 = false ∧ ¬ isMatch 0 ∧
      (0 : Word32).getLsbD 3 = false ∧ (d.head 0).retryUsed = false ∧ (8 : Word32).getLsbD 3 = true ∧
      ((withHead { d.head 0 with retryUsed := true } d).head 0).retryUsed = true ∧ (d.head 1).state ≠ .setting :=
  ⟨inService_of (by decide), by decide⟩

theorem test_hypotheses_CrossingStrikesOrMisses :
    let at5 := onBpu (fun b => { b with position := 5 }) base
    let back : StampEntry := { entry with fire := 4 }
    at5.sth.heads.length = 4 ∧
      (∀ state ∈ [HeadState.ready, .striking, .stalled, .setting, .idle, .recovering],
        (inState state at5).crossedEntry 0 = some entry ∧ ((inState state at5).head 0).state = state ∧
          ((inState state at5).head 0).queue = entry :: []) ∧
      (withHead { idleHead with queue := [back, entry] } at5).crossedEntry 0 = some entry ∧ back.fire ≠ entry.fire ∧
      ([0, 1, 2, 3] : List (Fin 4)).filter (fun n => (at5.crossedEntry n).isSome) = [] ∧
      ([0, 1, 2, 3] : List (Fin 4)).filter (fun n => ((inState .ready at5).crossedEntry n).isSome) ≠ [] := by
  decide

theorem test_hypotheses_StrikeAndRecoverTimesEnd :
    let d := inState .striking (withTable base)
    let r := inState .recovering base
    d.InService ∧ d.sth.heads.length = 4 ∧ ((d.head 0).state = .striking ∧ (d.head 0).timer.due = true ∧
      (d.head 0).queue = entry :: []) ∧ (d.head 0).disablePending = false ∧ 0 < (d.headEntry 0).recoverTime ∧
      (base.headEntry 0).recoverTime = 0 ∧ ((withHead { d.head 0 with disablePending := true } d).head 0).disablePending = true ∧
      r.InService ∧ ((r.head 0).state = .recovering ∧ (r.head 0).timer.due = true) ∧ (base.head 0).state ≠ .striking ∧
      (base.head 0).timer.due = false :=
  ⟨inService_of (by decide), by decide, by decide, by decide, by decide, by decide, by decide, inService_of (by decide),
    by decide⟩

def aPack : Pack := ⟨1, 1, 2, 300, 4000, .ft2, .whole, 0, false⟩

def withSlot (s : PackSlot) (d : Device) : Device := d.setSlot 0 s

def heldPack : ClosedPack := ⟨aPack, ⟨true, false, false⟩, 4⟩

/-- A pack below its target, one that comes to it with the buffer empty and full, with report room and without. -/
theorem test_hypotheses_PackFeedAddsAndCloses :
    let full := onLnk (fun l => { l with reportFifo := List.replicate 32 frame }) base
    base.pku.slots.length = 4 ∧ (base.slot 0).acc = none ∧ ((withSlot ⟨some aPack, none⟩ base).slot 0).acc = some aPack ∧
      1 < 2 ∧ aPack.target ≤ min (aPack.hides + 1) 65535 ∧ ((withSlot ⟨some aPack, none⟩ base).slot 0).buf = none ∧
      ((withSlot ⟨some aPack, some heldPack⟩ base).slot 0).buf ≠ none ∧ base.reportRoom = true ∧ full.reportRoom = false := by
  decide

/-! ### Hypotheses: the line control, custody and the link -/

def withInput (e : InputEntry) (i : InputLine) (d : Device) : Device :=
  onLct (fun l => { l with table := l.table.set 0 e, inputs := l.inputs.set 0 i }) d

def runInput : InputEntry := ⟨.beltRun, false, false, true, 5⟩

theorem test_hypotheses_InputSamplesAreDebounced :
    let d := withInput runInput ⟨false, false, none⟩ base
    let running := withInput runInput ⟨true, false, dueTimer⟩ base
    d.InService ∧ true ≠ (d.lct.input 0).debounced ∧ false = (d.lct.input 0).debounced ∧ (d.lct.input 0).timer = none ∧
      0 < (d.lct.entry 0).debounce ∧ (base.lct.entry 0).debounce = 0 ∧ (running.lct.input 0).timer ≠ none ∧
      (running.lct.input 0).timer.due = true ∧ (d.lct.input 0).timer.due = false :=
  ⟨inService_of (by decide), by decide⟩

/-- Each function with its condition made, kept and ended, and an EVENT input in each mode. -/
theorem test_hypotheses_DebouncedEdgeActsByFunction :
    let form := fun (f : InputFunction) (raw : Bool) =>
      (withInput { runInput with function := f } ⟨raw, !raw, none⟩ base).setInput 0 ⟨raw, raw, none⟩
    (base.lct.entry 0).function = .unused ∧ runInput.enable = true ∧ runInput.function = .beltRun ∧
      (form .beltRun true).lct.formBeltRun = true ∧ base.lct.beltRun = false ∧ (form .beltRun false).lct.formBeltRun = false ∧
      (onLct (fun l => { l with beltRun := true }) base).lct.beltRun = true ∧
      (form .estop true).lct.formEstop = true ∧ base.lct.estop = false ∧ base.lct.lineState ≠ .init ∧
      (form .estop false).lct.formEstop = false ∧ (form .event true).lct.inputActive 0 = true ∧
      (form .event false).lct.inputActive 0 = false ∧ runInput.levelMode = false ∧ (inLine .faulted).lct.estop = false ∧
      (inLine .faulted).lct.lineState = .faulted ∧ base.lct.lineState ≠ .faulted ∧
      (∀ state ∈ [HeadState.setting, .ready, .striking, .recovering], ((inState state base).head 0).state = state ∧
        ((inState state base).head 0).queue = entry :: []) := by
  decide

theorem test_hypotheses_LatchesAreRaisedAndReported :
    let d := base.raise .storeFull
    let full := onLnk (fun l => { l with reportFifo := List.replicate 32 frame }) d
    d.lct.latches.length = 27 ∧ d.lct.mask.length = 27 ∧
      (d.lct.latches[Latch.storeFull.bit]? = some .pending ∧ d.lct.mask[Latch.storeFull.bit]? = some false) ∧
      d.reportRoom = true ∧ full.reportRoom = false ∧ base.lct.latches[Latch.storeFull.bit]? = some .clear := by decide

/-- Each refusal of COMMIT_CAL, the start of a commit, and both of its ends. -/
theorem test_hypotheses_CommitIsRefusedOrStartsAndEnds :
    let idle := inLine .idle
    let loaded := onCcu (fun c => { c with segments := List.replicate 16 .loaded, working := [some 3] }) idle
    let locked := onCcu (fun c => { c with store := { c.store with lockCell := some ⟨false, true⟩ } }) idle
    let flight := onCcu (fun c => { c with committing := true, commitTimer := dueTimer }) base
    base.ReadyFor ∧ base.lct.lineState ≠ .idle ∧ idle.ReadyFor ∧ idle.lct.lineState = .idle ∧ locked.ccu.lock.locked = true ∧
      (onCcu (fun c => { c with audit := 2 ^ 32 - 1 }) idle).ccu.audit = 2 ^ 32 - 1 ∧
      idle.ccu.lock.locked = false ∧ idle.ccu.audit ≠ 2 ^ 32 - 1 ∧ idle.ccu.committing = false ∧ flight.ccu.committing = true ∧
      idle.ccu.segments.getD 0 .unset = .unset ∧ (∀ i < 16, loaded.ccu.segments.getD i .unset ≠ .unset) ∧
      checkSum loaded.ccu.working = 3 ∧ (4 : Word32) ≠ checkSum loaded.ccu.working ∧
      flight.InService ∧ flight.ccu.commitTimer.due = true ∧ base.ccu.committing = false ∧ base.ccu.commitTimer.due = false :=
  ⟨readyFor_of (by decide), by decide, readyFor_of (by decide), by decide, by decide, by decide, by decide, by decide,
    by decide, by decide, by decide, by decide, by decide, by decide, inService_of (by decide), by decide⟩

def sending (d : Device) : Device := onLnk (fun l => { l with downTx := some frame, upTx := some frame }) d

def withReports (n : Nat) (d : Device) : Device := onLnk (fun l => { l with reportFifo := List.replicate n frame }) d

def withForwards (n : Nat) (d : Device) : Device := onLnk (fun l => { l with forwardFifo := List.replicate n frame }) d

theorem test_hypotheses_FramesJoinTheirFifosAndWakeTheTransmitter :
    base.lnk.txSettled ∧ base.dec.owed = [] ∧ base.lnk.reportFifo.length < 32 ∧ base.lnk.forwardFifo.length < 8 ∧
      base.lnk.downTx = none ∧ (sending (withReports 32 (withForwards 8 base))).lnk.txSettled ∧
      32 ≤ (sending (withReports 32 base)).lnk.reportFifo.length ∧ 8 ≤ (sending (withForwards 8 base)).lnk.forwardFifo.length ∧
      (sending (withReports 31 (withForwards 7 base))).lnk.txSettled :=
  ⟨fun _ => ⟨rfl, rfl, rfl⟩, by decide, by decide, by decide, by decide, (nomatch ·), by decide, by decide,
    (nomatch ·)⟩

/-- A record that waits FINAL; a HELD buffer with its accumulator EMPTY, below, at and above the target. -/
theorem test_hypotheses_reports_wait :
    let final : HideRecord := { aRecord with disposition := .skippedNoAnchor }
    let held := fun acc => withSlot ⟨acc, some heldPack⟩ base
    (onHev (fun h => { h with store := [some aRecord, some final] }) base).hev.oldestFinal = some (1, final) ∧
      base.hev.oldestFinal = none ∧ (held none).heldSlot = some 0 ∧ base.heldSlot = none ∧
      (held none).pku.slots.length = 4 ∧ ((held none).slot 0).buf = some heldPack ∧ ((held none).slot 0).acc = none ∧
      ((held (some aPack)).slot 0).acc = some aPack ∧ aPack.hides < aPack.target ∧
      ((held (some { aPack with hides := 2 })).slot 0).acc = some { aPack with hides := 2 } ∧ aPack.target ≤ 2 ∧
      ((held (some { aPack with hides := 3 })).slot 0).acc = some { aPack with hides := 3 } := by decide

/-- A reply with parts left and one without, a report, a forwarded frame, and nothing; and the upstream side. -/
theorem test_hypotheses_FrameEndTakesTheNextFrameInOrder :
    let replies := fun r => onLnk (fun l => { l with replyFifo := [r] }) (sending base)
    let long : ReplyEntry := ⟨List.replicate 300 0, 0⟩
    let short : ReplyEntry := ⟨[1, 0, 0, 0], 0⟩
    (replies long).InService ∧ (replies long).lnk.downTx ≠ none ∧ (replies long).lnk.replyFifo = long :: [] ∧
      long.taken + 1 < partCount long.message ∧ (replies short).lnk.replyFifo = short :: [] ∧
      partCount short.message ≤ short.taken + 1 ∧ (sending (withReports 1 base)).lnk.reportFifo = frame :: [] ∧
      (sending (withForwards 1 base)).lnk.forwardFifo = frame :: [] ∧ (sending base).lnk.reportFifo = [] ∧
      base.lnk.downTx = none ∧ base.lnk.upTx = none ∧ (sending base).lnk.upTx ≠ none :=
  ⟨inService_of (by decide), by decide, rfl, by rw [partCount, List.length_replicate]; decide, rfl, by decide, rfl, rfl, rfl, rfl,
    rfl, by decide⟩

theorem test_hypotheses_BarFramesAreForwarded :
    let full := onLnk (fun l => { l with upFifo := List.replicate 4 frame }) (sending base)
    base.InService ∧ base.lnk.upFifo.length < 4 ∧ base.lnk.upTx = none ∧ base.lnk.upFifo = [] ∧
      (sending base).lnk.upTx ≠ none ∧ (sending base).lnk.upFifo.length < 4 ∧ full.InService ∧ 4 ≤ full.lnk.upFifo.length :=
  ⟨inService_of (by decide), by decide, by decide, by decide, by decide, by decide, inService_of (by decide), by decide⟩

/-- A byte that is no delimiter and one that is, one that leaves a frame unfinished, one that names a length above 256, and one that
ends a frame with a wrong check value. -/
theorem test_hypotheses_UnfinishedAndBadFramesAreDiscarded :
    let d := onLnk (fun l => { l with downReceiver := .receiving [0x40, 1] dueTimer }) base
    base.InService ∧ base.lnk.receiver .downstream = .hunting ∧ base.lnk.receiver .upstream = .hunting ∧ d.InService ∧
      d.lnk.receiver .downstream = .receiving [0x40, 1] dueTimer ∧ dueTimer.due = true ∧ (Timer.start 1 false).due = false ∧
      (0x55 : Byte) ≠ 0x7E ∧ judge ([0x40, 1] ++ [0]) = .incomplete ∧ judge ([0x40, 1, 1] ++ [1]) = .discard ∧
      judge ([0x40, 1, 0, 0, 0] ++ [0]) = .discard :=
  ⟨inService_of (by decide), by decide, by decide, inService_of (by decide), by decide, by decide, by decide, by decide, by decide,
    by decide, by set_option maxRecDepth 20000 in decide⟩

/-- In HUNTING noise is discarded; after the delimiter bytes are gathered (R195). -/
theorem test_bytes_before_a_delimiter_are_discarded :
    (base.takeBytes .upstream [0x55, 0x10, 0x7E, 0x10, 0x7E]).lnk.receiver .upstream =
        .receiving [0x10, 0x7E] (Timer.start 1 false) ∧
      (base.takeBytes .upstream [0x55, 0x10]).lnk.receiver .upstream = .hunting := by
  set_option maxRecDepth 20000 in decide

/-- The byte that makes a frame whole with those gathered before: a QUERY for the part, and a frame of the bar. -/
theorem test_hypotheses_frame_made_whole :
    let f : Frame := ⟨0x40, 1, []⟩
    let before := f.wire.tail.dropLast
    let last := (f.wire.getLast?).getD 0
    let d := onLnk (fun l => { l with downReceiver := .receiving before dueTimer }) base
    d.InService ∧ d.lnk.receiver .downstream = .receiving before dueTimer ∧ judge (before ++ [last]) = .good f ∧
      downstreamCommand f = .query ∧ judge (frame.body ++ bytesOf 2 (crc16 frame.body).toNat) = .good frame :=
  ⟨inService_of (by decide), by rfl, by set_option maxRecDepth 20000 in decide, by decide,
    by set_option maxRecDepth 20000 in decide⟩

/-- Such bytes are the command of the frame: the QUERY is answered, and its receiver hunts (R195, R196). -/
theorem test_frame_made_whole_is_routed :
    Device.route .downstream ⟨0x46, 1, [0, 4]⟩ base = base.takePart [0, 4] ∧
      Device.route .downstream ⟨0x40, 2, []⟩ base = base.forwardUp ⟨0x40, 2, []⟩ := ⟨rfl, rfl⟩

theorem test_hypotheses_FrameBytesAreReadBackAsTheFrame :
    frame.payload.length ≤ 256 ∧ (⟨0x40, 1, List.replicate 256 0⟩ : Frame).payload.length ≤ 256 ∧ 0 < 65536 ∧
      0 ≠ (crc16 frame.body).toNat ∧ 3 < (frame.body ++ bytesOf 2 (crc16 frame.body).toNat).length :=
  ⟨by decide, Nat.le_of_eq List.length_replicate, by decide, by set_option maxRecDepth 20000 in decide,
    by set_option maxRecDepth 20000 in decide⟩

def assembling (a : Assembly) (d : Device) : Device := onLnk (fun l => { l with assembly := some a }) d

/-- No assembly, an open one whose next part comes, is the last, and is the part that may not open another; and its time-out. -/
theorem test_hypotheses_LoadPartsAreAssembled :
    let d := assembling ⟨1, [4, 0], Timer.start 50 false⟩ base
    let late := assembling ⟨15, [4, 0], dueTimer⟩ base
    base.InService ∧ base.lnk.assembly = none ∧ d.InService ∧ d.lnk.assembly = some ⟨1, [4, 0], Timer.start 50 false⟩ ∧
      (Timer.start 50 false).due = false ∧ late.lnk.assembly = some ⟨15, [4, 0], dueTimer⟩ ∧ dueTimer.due = true ∧
      (0x01 : Byte).toNat % 16 = 1 ∧ (0x81 : Byte).toNat % 16 = 1 ∧ (0x81 : Byte).msb = true ∧ (0x0F : Byte).toNat % 16 = 15 ∧
      (0x80 : Byte).toNat % 16 = 0 :=
  ⟨inService_of (by decide), by decide, inService_of (by decide), by decide⟩

/-! ### Hypotheses: the station's requests -/

theorem test_hypotheses_LineStateRequestsMoveTheLine :
    let ready := withTable (withTerms (onCcu (fun c => { c with valid := true }) (inLine .paused)))
    let estop := onLct (fun l => { l with estop := true }) (inLine .faulted)
    base.ReadyFor ∧ (inLine .idle).ReadyFor ∧ (inLine .paused).ReadyFor ∧ (inLine .faulted).ReadyFor ∧
      ready.ReadyFor ∧ (ready.lct.lineState = .paused ∧ ready.ccu.committing = false ∧ ready.ccu.valid = true ∧
        ready.hev.terms ≠ none ∧ ready.sth.table ≠ none) ∧
      (cutPart.ccu.committing = true ∧ (inLine .idle).ccu.valid = false ∧ base.hev.terms = none ∧ base.sth.table = none) ∧
      estop.ReadyFor ∧ estop.lct.estop = true ∧ (inLine .faulted).lct.estop = false ∧ base.sth.heads.length = 4 :=
  ⟨readyFor_of (by decide), readyFor_of (by decide), readyFor_of (by decide), readyFor_of (by decide),
    readyFor_of (by decide), by decide, by decide, readyFor_of (by decide), by decide⟩

/-- The segments of each area at the ends of its range. -/
theorem test_hypotheses_QueryAndReadsShowTheState :
    base.ReadyFor ∧ base.ccu.segments.length = 16 ∧ base.lct.latches.length = 27 ∧ base.lct.mask.length = 27 ∧
      (twoLines.bpu.outstanding[1]? = some ⟨8, 5⟩ ∧ base.bpu.pauseTimer = none ∧ base.rtk.prevLine = none) ∧
      (CalTable.widths.segments ≤ (13 : Byte).toNat ∧ (12 : Byte).toNat < CalTable.widths.segments) ∧
      (CalTable.mask.segments ≤ (2 : Byte).toNat ∧ (1 : Byte).toNat < CalTable.mask.segments) ∧
      (CalTable.conditioning.segments ≤ (1 : Byte).toNat ∧ (0 : Byte).toNat < CalTable.conditioning.segments) ∧
      (base.hev.terms = none ∧ (withTerms base).hev.terms = some terms) ∧
      (base.sth.table = none ∧ (withTable base).sth.table = some (List.replicate 4 wideEntry)) ∧
      (6 ≤ (6 : Byte).toNat ∧ (5 : Byte).toNat < 6) ∧ (4 ≤ (4 : Byte).toNat ∧ (3 : Byte).toNat = (3 : Fin 4).val) ∧
      ((withHead { idleHead with lastShift := some 1, lastReadback := some 2 } base).head 0).lastShift = some 1 :=
  ⟨readyFor_of (by decide), by decide⟩

theorem test_hypotheses_RequestsThatAreNotPerformed :
    let full := onLnk (fun l => { l with replyFifo := List.replicate 4 ⟨[1], 0⟩ }) base
    let owing : Device := { full with dec := { full.dec with owed := List.replicate 16 kindQuery } }
    base.ReadyFor ∧ kindQuery ≠ kindLoad ∧ messageLegal kindQuery 0 = true ∧ messageLegal kindQuery 1 = false ∧
      requestKind .query = some kindQuery ∧ full.InService ∧ 4 ≤ full.lnk.replyFifo.length + full.dec.reservations ∧
      full.dec.owed.length < 16 ∧ owing.InService ∧ owing.dec.owed ≠ [] ∧ ¬ owing.dec.owed.length < 16 :=
  ⟨readyFor_of (by decide), by decide, by decide, by decide, by decide, inService_of (by decide), by decide, by decide,
    inService_of (by decide), by decide⟩

/-- CONDITIONING data of a pitch of 1000 µm. -/
def conditioningData : List Byte := [3, 232, 0, 0, 0, 1, 0, 0, 0, 0, 0, 0, 0, 0]

theorem test_hypotheses_CalibrationLoadsWriteTheWorkingCopy :
    let locked := onCcu (fun c => { c with store := { c.store with lockCell := some ⟨false, true⟩ } }) (inLine .idle)
    let flight := onCcu (fun c => { c with committing := true }) (inLine .idle)
    let t := CalTable.conditioning
    base.ReadyFor ∧ base.lct.lineState ≠ .idle ∧ locked.ReadyFor ∧ locked.ccu.lock.locked = true ∧ flight.ReadyFor ∧
      flight.ccu.lock.locked = false ∧ flight.ccu.committing = true ∧ (inLine .idle).ReadyFor ∧
      (inLine .idle).lct.lineState = .idle ∧ (inLine .idle).ccu.committing = false ∧ t.segments ≤ (1 : Byte).toNat ∧
      (0 : Byte).toNat < t.segments ∧ conditioningData.length = 2 * t.words 0 ∧
      segmentRefusal t 0 (wordsOf 7 conditioningData) = none ∧
      segmentRefusal t 0 (wordsOf 7 (List.replicate 14 0)) = some (detailOf 3 0) ∧ ([] : List Byte).length ≠ 2 * t.words 0 ∧
      segmentRefusal t 0 (wordsOf 7 (0 :: conditioningData.drop 1)) = some (detailOf 3 0) ∧
      segmentRefusal t 0 (wordsOf 7 (conditioningData.take 13 ++ [2])) = some (detailOf 7 0) :=
  ⟨readyFor_of (by decide), by decide, readyFor_of (by decide), by decide, readyFor_of (by decide), by decide, by decide,
    readyFor_of (by decide), by decide⟩

theorem test_conditioning_load_on_a_whole_set : State.reset.dev.ccu.working.length = 3207 := List.length_replicate

def termsData : List Byte := Terms.bytes { terms with minAnchor := 1 }

theorem test_hypotheses_TermsLoadReplacesTermsAndClosesPacks :
    let stuck := withSlot ⟨some aPack, some heldPack⟩ base
    base.ReadyFor ∧ base.pku.slots.length = 4 ∧ termsData.length = 110 ∧ termsRefusal termsData = none ∧
      termsRefusal (9 :: termsData.drop 1) = some (detailOf 1 0) ∧ (1 : Byte) ≠ 0 ∧ ([] : List Byte).length ≠ 110 ∧
      (∀ n, (base.slot n).acc = none ∨ (base.slot n).buf = none) ∧
      ((withSlot ⟨some aPack, none⟩ base).slot 0).acc = some aPack ∧
      (termsRefusal (termsData.take 109 ++ [100]) = some (detailOf 15 7) ∧
        termsRefusal ([1, 1] ++ termsData.drop 2) = some (detailOf 2 0) ∧
        termsRefusal (termsData.take 109 ++ [3]) = some (detailOf 15 7) ∧
        ((fieldAt 0 1 ([1, 1] ++ (termsData.drop 2).take 107 ++ [3]), fieldAt 97 1 (termsData.take 109 ++ [3]),
          fieldAt 109 1 (termsData.take 109 ++ [3])) = (1, 2, 3))) ∧
      stuck.ReadyFor ∧ (∃ n, (stuck.slot n).acc ≠ none ∧ (stuck.slot n).buf ≠ none) :=
  ⟨readyFor_of (by decide), by decide, by decide, by set_option maxRecDepth 20000 in decide,
    by set_option maxRecDepth 20000 in decide, by decide, by decide, by decide, by decide,
    by set_option maxRecDepth 20000 in decide, readyFor_of (by decide), 0, by decide⟩

/-- The load of section 5.8, its attempts 2 to 5 in order: attempt 3 has a refused combination and, over the classes of attempt 4, a
pack target that differs, and the resolution is named. -/
def exampleTerms (resolution : Resolution) (unit : SaleUnit) (force5 target3 : Nat) : List Byte :=
  Terms.bytes ⟨unit, resolution, .nearest, 800, 1000, 5, 4, 400000, .stars,
    [⟨800, 3999, 1, 6, some 0, 25⟩, ⟨4000, 5999, 2, 8, some 1, 20⟩, ⟨6000, 19999, 3, 10, some 2, 15⟩,
      ⟨20000, 302978, 4, 12, some 2, target3⟩, ⟨1, 0, 0, 0, none, 1⟩, ⟨1, 0, 0, force5, none, 1⟩, ⟨1, 0, 0, 0, none, 1⟩,
      ⟨1, 0, 0, 0, none, 1⟩]⟩

theorem test_terms_example_attempts :
    termsRefusal (exampleTerms .hundredth .ft2 16 10) = some (detailOf 13 5) ∧
      termsRefusal (exampleTerms .hundredth .dm2 0 10) = some (detailOf 2 0) ∧
      termsRefusal (exampleTerms .hundredth .ft2 0 10) = some (detailOf 15 3) ∧
      termsRefusal (exampleTerms .hundredth .ft2 0 15) = none := by
  set_option maxRecDepth 20000 in decide

def headsData : List Byte := (List.replicate 4 wideEntry).flatMap HeadEntry.bytes

def inputsData : List Byte := (List.replicate 8 runInput).flatMap InputEntry.bytes

theorem test_hypotheses_HeadsAndInputsLoadsReplaceTheirTables :
    base.ReadyFor ∧ base.lct.lineState ≠ .idle ∧ base.lct.lineState ≠ .paused ∧ (inLine .idle).ReadyFor ∧
      (inLine .paused).ReadyFor ∧ headsData.length = 80 ∧ headsRefusal headsData = none ∧
      headsRefusal (2 :: headsData.drop 1) = some (detailOf 1 0) ∧ (headEntryAt headsData 3).enable = true ∧
      inputsData.length = 40 ∧ inputsRefusal inputsData = none ∧ inputsRefusal (4 :: inputsData.drop 1) = some (detailOf 1 0) ∧
      (inLine .idle).sth.heads.length = 4 ∧
      (headsRefusal (headsData.take 78 ++ bytesOf 2 1001) = some (detailOf 9 3) ∧
        inputsRefusal (inputsData.take 38 ++ [2, 0]) = some (detailOf 4 7) ∧
        fieldAt 1 2 ([1, 0, 5, 0, 4] ++ headsData.drop 5) = 5 ∧ fieldAt 3 2 ([1, 0, 5, 0, 4] ++ headsData.drop 5) = 4) :=
  ⟨readyFor_of (by decide), by decide, by decide, readyFor_of (by decide), readyFor_of (by decide), by decide,
    by set_option maxRecDepth 20000 in decide, by set_option maxRecDepth 20000 in decide, by decide, by decide,
    by set_option maxRecDepth 20000 in decide, by set_option maxRecDepth 20000 in decide, by decide,
    by set_option maxRecDepth 20000 in decide⟩

/-- INPUTS tables that leave the emergency stop condition, make it ACTIVE, and end it, with INPUT_0 HELD under both modes. -/
theorem test_hypotheses_inputs_load :
    let estopData : List Byte := [2, 1, 0, 1, 0] ++ List.replicate 35 0
    let edgeData : List Byte := [3, 1, 0, 1, 0] ++ List.replicate 35 0
    let levelData : List Byte := [3, 1, 1, 1, 0] ++ List.replicate 35 0
    let taken := fun data : List Byte => { (inLine .idle).lct with table := inputsAt data }
    let held := onLct (fun l => { l with latches := l.latches.set 3 .held }) (inLine .idle)
    (∀ data ∈ [estopData, edgeData, levelData], data.length = 40 ∧ inputsRefusal data = none) ∧
      (taken estopData).formEstop = true ∧ (inLine .idle).lct.estop = false ∧ (taken edgeData).formEstop = false ∧
      (onLct (fun l => { l with estop := true }) (inLine .paused)).lct.estop = true ∧ held.lct.latches[3 + 0]? = some .held ∧
      (inputEntryAt edgeData 0).levelMode = false ∧ (inputEntryAt levelData 0).levelMode = true ∧
      (taken levelData).inputActive 0 = true ∧ (inputEntryAt levelData 1).function ≠ .event := by
  set_option maxRecDepth 20000 in decide

theorem test_hypotheses_LoadedTablesReadBackAsLoaded :
    (termsData.length = 110 ∧ termsRefusal termsData = none) ∧ (headsData.length = 80 ∧ headsRefusal headsData = none) ∧
      inputsData.length = 40 ∧ inputsRefusal inputsData = none := by
  set_option maxRecDepth 20000 in decide

/-- The rate at both ends of its range and above it, and the lowest bit without a field. -/
theorem test_hypotheses_FlagRequestsChangeTheirWord :
    let noField := fun (set : Bool) (i : Nat) => (3 ≤ i ∧ i ≤ 7) ∨ 15 ≤ i ∨ (set = false ∧ 8 ≤ i ∧ i ≤ 14)
    base.ReadyFor ∧ (2 : Byte) ≠ 1 ∧ (2 : Byte) ≠ 0 ∧
      (noField true 3 ∧ (8 : Word32).getLsbD 3 = true ∧ ∀ j < 3, noField true j → (8 : Word32).getLsbD j = false) ∧
      (∀ i < 32, noField true i → (0x4100 : Word32).getLsbD i = false) ∧
      (∀ i < 32, noField false i → (7 : Word32).getLsbD i = false) ∧
      (1 ≤ base.lct.control.rate ∧ base.lct.control.rate ≤ 64) ∧ ((0x4000 : Word32).extractLsb' 8 7).toNat ≤ 64 ∧
      64 < ((0x4100 : Word32).extractLsb' 8 7).toNat ∧ base.lct.lineState ≠ .idle ∧ (inLine .idle).ReadyFor ∧
      (inLine .idle).lct.lineState = .idle ∧ (0x08000000 : Word32).getLsbD 27 = true ∧
      (∀ i < 32, 27 ≤ i → (0x07FFFFFF : Word32).getLsbD i = false) :=
  ⟨readyFor_of (by decide), by decide, by decide, by decide, by decide, by decide, by decide, by decide, by decide, by decide,
    readyFor_of (by decide), by decide⟩

theorem test_hypotheses_HeadRequestsSwitchHeads :
    let d := inState .striking (withTable base)
    base.ReadyFor ∧ base.sth.heads.length = 4 ∧ 4 ≤ (4 : Byte).toNat ∧ (3 : Byte).toNat = (3 : Fin 4).val ∧
      (base.head 0).state = .disabled ∧ d.ReadyFor ∧ (d.head 0).state = .striking ∧ (d.headEntry 0).enable = true ∧
      (base.headEntry 0).enable = false ∧ ((inState .stalled base).head 0).state = .stalled ∧
      ((inState .setting base).head 0).state = .setting ∧ (2 : Byte) ≠ 1 :=
  ⟨readyFor_of (by decide), by decide, by decide, by decide, by decide, readyFor_of (by decide), by decide⟩

theorem test_hypotheses_ClosePackLockNextAndClearCounters :
    let d := withSlot ⟨some aPack, none⟩ base
    let held := withSlot ⟨some aPack, some heldPack⟩ base
    base.ReadyFor ∧ base.pku.slots.length = 4 ∧ 4 ≤ (4 : Byte).toNat ∧ (0 : Byte).toNat = (0 : Fin 4).val ∧
      (base.slot 0).acc = none ∧ d.ReadyFor ∧ (d.slot 0).acc = some aPack ∧ (d.slot 0).buf = none ∧ held.ReadyFor ∧
      (held.slot 0).buf ≠ none :=
  ⟨readyFor_of (by decide), by decide, by decide, by decide, by decide, readyFor_of (by decide), by decide, by decide,
    readyFor_of (by decide), by decide⟩

/-- Requests that arrive with the tracker busy and between lines; a service with no other reply place, after a pending walk too; a
FLUSH with an OPEN gap and an OPEN leather root, and one refused. -/
theorem test_hypotheses_WaitingRequestsAreServedBetweenLines :
    let waiting := onRtk (fun k => { k with waiting := [.flush] }) base
    let full := onLnk (fun l => { l with replyFifo := List.replicate 3 ⟨[1], 0⟩ }) { waiting with dec := ⟨1, []⟩ }
    let walk := onRtk (fun k => { k with retryPending := true }) waiting
    let busy := withWork aFill 3 base
    let under := onRtk (fun k => { k with
      table := (k.table.set 0 (openRegion .leather 0)).set 1 (openRegion .gap 1)
      prev := ⟨[⟨0, 4, 5, .entry 0⟩, ⟨8, 9, 2, .entry 0⟩], [⟨5, 7, 3, .entry 1⟩]⟩ }) (inLine .paused)
    busy.ReadyFor ∧ busy.rtk.work ≠ none ∧ base.ReadyFor ∧ base.rtk.work = none ∧ base.rtk.waiting = [] ∧
      base.rtk.retryPending = false ∧ full.InService ∧ full.rtk.waiting = .flush :: [] ∧ full.rtk.work = none ∧
      full.rtk.retryPending = false ∧ ¬ full.lnk.replyFifo.length + full.dec.reservations < 4 ∧ walk.InService ∧
      walk.rtk.retryPending = true ∧ base.lct.lineState ≠ .paused ∧ (inLine .paused).lct.lineState = .paused ∧
      (inLine .paused).lcn.queue = [] ∧ (withQueue [aFill] (inLine .paused)).lcn.queue ≠ [] ∧
      (under.lct.lineState = .paused ∧ under.lcn.queue = [] ∧ under.rtk.cur = ⟨[], []⟩ ∧ under.rtk.table.length = 64 ∧
        (under.rtk.region 0).kind = .leather ∧ (under.rtk.region 0).state = .opened ∧ (under.rtk.region 0).touched = false ∧
        (under.rtk.region 1).kind = .gap ∧ (under.rtk.region 1).state = .opened ∧ (under.rtk.region 1).touched = false) ∧
      8 ≤ (8 : Byte).toNat ∧ (7 : Byte).toNat < 8 :=
  ⟨readyFor_of (by decide), by decide, readyFor_of (by decide), by decide, by decide, by decide, inService_of (by decide),
    by decide, by decide, by decide, by decide, inService_of (by decide), by set_option maxRecDepth 20000 in decide⟩

/-- FLUSH releases an OPEN gap root as a bay (R67). -/
theorem test_flush_releases_a_gap :
    let k : Rtk := { holeRtk [] with cur := ⟨[], []⟩ }
    (k.stage6 0).stack = 1 :: k.stack ∧ (k.stage6 0).region 1 = Region.cleared .gap 1 := by
  set_option maxRecDepth 20000 in decide

theorem test_hypotheses_LineResetResetsEveryBlock :
    (base.lct.lineState ≠ .idle ∧ base.lct.lineState ≠ .paused) ∧ (inLine .idle).lct.lineState = .idle ∧
      (inLine .paused).lct.lineState = .paused := by decide

/-! ### Hypotheses: the invariants -/

theorem test_hypotheses_StepsKeepTheMarkAheadAndTheLinesInOrder :
    twoLines.bpu.markAhead ∧ twoLines.bpu.outstandingInOrder ∧ ∃ t, step ⟨twoLines, [.tick]⟩ = .next t :=
  ⟨by unfold Bpu.markAhead; decide, ⟨rfl, rfl⟩, _, rfl⟩

theorem test_hypotheses_StepsKeepTheLineQueueInBounds :
    let d := withWork aFill 255 (onLcn (fun c => { c with trailing := 255, overflow := 9 }) (withQueue (List.replicate 4 aFill) base))
    d.lcn.queueInBounds ∧ d.rtk.betweenSteps ∧ d.LinesApart ∧ ∃ t, step ⟨d, [.fill]⟩ = .next t :=
  ⟨by unfold Lcn.queueInBounds; decide,
    ⟨rfl, fun w h => by
      obtain rfl : _ = w := Option.some.inj h
      decide⟩,
    ⟨⟨fun _ h => (nomatch h), .nil⟩, fun _ h => (nomatch h), fun e h => by
      obtain rfl : e = aFill := List.eq_of_mem_replicate h
      trivial, fun w h => by
      obtain rfl : _ = w := Option.some.inj h
      trivial⟩, _, rfl⟩

/-- The runs of a LINE entry of two runs lie apart. -/
theorem test_hypotheses_lines_apart : (EntryContent.line .clean [⟨3, 9, 7000⟩, ⟨11, 11, 1000⟩]).runsApart := by
  unfold EntryContent.runsApart spansApart
  decide

theorem test_hypotheses_StepsKeepTheTableSizes :
    State.reset.dev.Sized ∧ State.reset.dev.rtk.areasFit ∧ ∃ t, step ⟨State.reset.dev, [.tick]⟩ = .next t :=
  ⟨reset_sized, fun r h => by
    obtain ⟨i, -, rfl⟩ := List.mem_map.mp h
    exact Nat.zero_le _, _, rfl⟩

theorem test_hypotheses_StepsKeepStrikeLinesInStriking :
    (inState .striking base).sth.strikesInStriking ∧ (∃ t, step ⟨inState .striking base, [.strikeTimeExpiry 0]⟩ = .next t) ∧
      (withTable base).sth.spacingsLegal ∧ (∀ h ∈ (inState .striking base).sth.heads, queueRises h.queue) ∧
      (∀ h ∈ (inState .striking base).sth.heads, queueWithinHalf h.queue) ∧ ([0x7E] : List Byte).length ≤ 1 := by
  refine ⟨by unfold Sth.strikesInStriking Head.strikeInStriking; decide, ⟨_, rfl⟩, ?_, by unfold queueRises; decide,
    fun h m => ⟨0, ?_⟩, by decide⟩
  · intro t e x m
    obtain rfl := Option.some.inj e
    rw [List.eq_of_mem_replicate m]
    decide
  · revert h m
    decide

theorem test_hypotheses_StepsKeepTheLinkInBoundsAndLatchesReported :
    let d := sending (withReports 32 (withForwards 8 (base.raise .storeFull)))
    d.LinkInBounds ∧ d.latchesReported ∧ ∃ t, step ⟨d, [.downstreamFrameEnd]⟩ = .next t :=
  ⟨⟨by decide, by decide, by decide, by decide, by decide, by decide, by decide, by decide, fun h => nomatch h⟩,
    fun _ => by decide, _, rfl⟩

theorem test_hypotheses_StepsKeepTheAuditCountAndTheLockedSet :
    let locked := onCcu (fun c => { c with store := { c.store with lockCell := some ⟨false, true⟩ } }) base
    let flight := onCcu (fun c => { c with committing := true }) base
    locked.CountSealed ∧ locked.StoreInStage ∧ locked.ccu.lock.locked = true ∧ (∃ t, step ⟨locked, [.lockNext]⟩ = .next t) ∧
      flight.CountSealed ∧
      flight.InService ∧ flight.ccu.committing = true ∧ whileRunning .sealWriteComplete = true ∧
      ∃ t, step ⟨flight, [.sealWriteComplete]⟩ = .next t :=
  ⟨⟨by decide, by decide, by decide⟩, ⟨⟨fun _ => rfl, fun _ => rfl⟩, (nomatch ·), (nomatch ·), fun _ h => (nomatch h)⟩, by decide,
    ⟨_, rfl⟩, ⟨by decide, by decide, by decide⟩, inService_of (by decide), by decide, by decide, _, rfl⟩

theorem test_hypotheses_StepsKeepTheSetsLegal :
    let d := State.reset.dev
    d.Sized ∧ d.CountSealed ∧ d.SetsLegal ∧ d.StoreInStage ∧ (∃ t, step ⟨d, [.tick]⟩ = .next t) ∧
      writtenPart.CountSealed ∧ writtenPart.StoreInStage := by
  have unset : ∀ i, State.reset.dev.ccu.segments.getD i .unset = .unset := fun i => by
    show (List.replicate 16 SegState.unset).getD i .unset = .unset
    rw [List.getD_eq_getElem?_getD, List.getElem?_replicate]
    split <;> rfl
  refine ⟨reset_sized, ⟨fun h => absurd rfl h, fun _ => rfl, fun _ => rfl⟩,
    ⟨(nomatch ·), fun t n _ h => absurd (unset _) h, (nomatch ·), by decide, by decide⟩, reset_storeInStage, ⟨_, rfl⟩,
    ⟨fun _ => rfl, (nomatch ·), (nomatch ·)⟩, writtenPart_storeInStage⟩

end Sys2Proof.Tests
end

section
/-!
PROOF. What a pulse moves of the belt position unit (R4, R6, R7): the trigger that a FORWARD pulse may bring, with the missed line it may
declare, and the crossing of the heads leave the position, the mark and the direction as the pulse set them.
-/

namespace Sys2Proof.Machine

/-- The belt units agree in what a pulse itself moves: position, mark and direction. -/
def Bpu.sameTrack (b m : Bpu) : Prop := m.position = b.position ∧ m.mark = b.mark ∧ m.direction = b.direction

theorem Bpu.sameTrack.refl (b : Bpu) : b.sameTrack b := ⟨rfl, rfl, rfl⟩

theorem Bpu.sameBelt.sameTrack {b m : Bpu} (h : b.sameBelt m) : b.sameTrack m := by
  rw [h]
  exact ⟨rfl, rfl, rfl⟩

/-- A line triggered, and an older one retired as missed for it, leave the track (R10, R12). -/
theorem Device.trigger_track (d : Device) : d.bpu.sameTrack d.trigger.bpu := by
  unfold Device.trigger
  dsimp only
  split
  case h_1 o p rest _ =>
    obtain ⟨position, mark, direction⟩ :=
      (Device.declareMissed_belt o { d with bpu := { d.bpu with outstanding := p :: rest } }).1.sameTrack
    exact ⟨position, mark, direction⟩
  case h_2 => exact .refl d.bpu

theorem Device.countDivider_track (d : Device) : d.bpu.sameTrack d.countDivider.bpu := by
  unfold Device.countDivider
  split
  · exact d.trigger_track
  · exact .refl d.bpu

/-- After a FORWARD pulse the track is as the pulse itself sets it, whatever it triggers and crosses (R7, R8, R127). -/
theorem Device.pulse_forward_track (d : Device) : d.bpu.forward.sameTrack (d.pulse .forward).bpu := by
  simp only [Device.pulse, (Device.presentPosition_keeps .forward _).1]
  split
  · exact Device.countDivider_track { d with bpu := d.bpu.forward }
  · exact .refl d.bpu.forward

/-- The mark goes with the position exactly when the two stand together (R7). -/
theorem Bpu.forward_mark (b : Bpu) : b.forward.mark = if b.position = b.mark then b.mark + 1 else b.mark := by
  simp [Bpu.forward, Bpu.newBelt]

/-- A REVERSE pulse triggers and crosses nothing: it moves the belt unit back and raises REVERSE where the direction turns (R6). -/
theorem Device.pulse_reverse (d : Device) :
    d.pulse .reverse =
      { (if d.bpu.direction = .forward then d.raise .reverse else d) with bpu := d.bpu.backward } := by
  simp only [Device.pulse, Device.presentPosition]
  split <;> rfl

/-- Settles O7: a FORWARD pulse by what its trigger and its crossings leave of the belt unit, a REVERSE pulse by its own equation. -/
theorem pulseMovesPositionMarkAndDirection : Obligations.PulseMovesPositionMarkAndDirection := by
  intro d
  obtain ⟨position, mark, direction⟩ := d.pulse_forward_track
  exact ⟨⟨position, direction, mark.trans d.bpu.forward_mark, (d.pulse_touches .forward).weaken rfl⟩, d.pulse_reverse⟩

end Sys2Proof.Machine
end

section
/-!
PROOF. The MASK table, cell by cell (R31): what the first pass leaves of a row, what stands nearest to a cell on either side, and the value
that a span of FILL cells takes from the cells beside it.
-/

namespace Sys2Proof.Machine

/-! ### The first pass -/

theorem forceOff_length {mask : List Nat} {row : List Bool} (h : mask.length = row.length) :
    (forceOff mask row).length = row.length := by
  simp [forceOff, h]

theorem forceOff_off {mask : List Nat} {row : List Bool} {i : Nat} (hi : i < row.length) (off : mask[i]? = some 1) :
    (forceOff mask row)[i]? = some false := by
  simp [forceOff, List.getElem?_zipWith, off, hi]

theorem forceOff_normal {mask : List Nat} {row : List Bool} {i : Nat} (normal : mask[i]? = some 0) :
    (forceOff mask row)[i]? = row[i]? := by
  cases h : row[i]? <;> simp [forceOff, List.getElem?_zipWith, normal, h]

/-! ### The nearest cell that is not FILL -/

theorem nearest_length (last : Option Bool) {mask : List Nat} {row : List Bool} (h : mask.length = row.length) :
    (nearest last mask row).length = row.length := by
  induction mask generalizing last row with
  | nil => simp_all [nearest]
  | cons m mask ih =>
    cases row with
    | nil => simp at h
    | cons c row => simp [nearest, ih _ (by simpa using h)]

/-- Behind FILL cells alone, what stood before the row is still the nearest. -/
theorem nearest_of_fill_before (last : Option Bool) {mask : List Nat} {row : List Bool} {i : Nat}
    (h : mask.length = row.length) (hi : i < row.length) (fill : ∀ j < i, mask[j]? = some 2) :
    (nearest last mask row)[i]? = some last := by
  induction i generalizing mask row with
  | zero =>
    obtain ⟨c, row, rfl⟩ := List.exists_cons_of_length_pos hi
    obtain ⟨m, mask, rfl⟩ := List.exists_cons_of_length_pos (h ▸ hi)
    rfl
  | succ i ih =>
    obtain ⟨c, row, rfl⟩ := List.exists_cons_of_length_pos (Nat.zero_lt_of_lt hi)
    obtain ⟨m, mask, rfl⟩ := List.exists_cons_of_length_pos (h ▸ Nat.zero_lt_of_lt hi)
    have isFill : m = 2 := by simpa using fill 0 i.succ_pos
    simpa [nearest, isFill] using
      ih (by simpa using h) (by simpa using hi) fun j hj => by simpa using fill (j + 1) (by omega)

/-- Behind a cell k that is not FILL and FILL cells since, cell k is the nearest. -/
theorem nearest_of_fill_since (last : Option Bool) {mask : List Nat} {row : List Bool} {i k : Nat}
    (h : mask.length = row.length) (hk : k < i) (hi : i < row.length) (stop : mask[k]? ≠ some 2)
    (fill : ∀ j, k < j → j < i → mask[j]? = some 2) :
    (nearest last mask row)[i]? = some row[k]? := by
  induction k generalizing last mask row i with
  | zero =>
    obtain ⟨c, row, rfl⟩ := List.exists_cons_of_length_pos (Nat.zero_lt_of_lt hi)
    obtain ⟨m, mask, rfl⟩ := List.exists_cons_of_length_pos (h ▸ Nat.zero_lt_of_lt hi)
    obtain ⟨i, rfl⟩ := Nat.exists_eq_add_one_of_ne_zero (Nat.ne_of_gt hk)
    have notFill : m ≠ 2 := by simpa using stop
    simpa [nearest, notFill] using
      nearest_of_fill_before (some c) (by simpa using h) (by simpa using hi)
        fun j hj => by simpa using fill (j + 1) (by omega) (by omega)
  | succ k ih =>
    obtain ⟨c, row, rfl⟩ := List.exists_cons_of_length_pos (Nat.zero_lt_of_lt hi)
    obtain ⟨m, mask, rfl⟩ := List.exists_cons_of_length_pos (h ▸ Nat.zero_lt_of_lt hi)
    obtain ⟨i, rfl⟩ := Nat.exists_eq_add_one_of_ne_zero (Nat.ne_zero_of_lt hk)
    simpa [nearest] using
      ih (if m = 2 then last else some c) (by simpa using h) (by omega) (by simpa using hi) (by simpa using stop)
        fun j hj hji => by simpa using fill (j + 1) (by omega) (by omega)

/-- For each cell, the value of the nearest cell to its right that is not FILL: the row read from its other end. -/
def nearestRight (mask : List Nat) (row : List Bool) : List (Option Bool) :=
  (nearest none mask.reverse row.reverse).reverse

theorem nearestRight_length {mask : List Nat} {row : List Bool} (h : mask.length = row.length) :
    (nearestRight mask row).length = row.length := by
  simpa [nearestRight] using nearest_length none (by simpa using h : mask.reverse.length = row.reverse.length)

theorem nearestRight_getElem? {mask : List Nat} {row : List Bool} {i : Nat} (h : mask.length = row.length)
    (hi : i < row.length) :
    (nearestRight mask row)[i]? = (nearest none mask.reverse row.reverse)[row.length - 1 - i]? := by
  have len : (nearest none mask.reverse row.reverse).length = row.length := by
    simpa only [nearestRight, List.length_reverse] using nearestRight_length h
  rw [nearestRight, List.getElem?_reverse (by omega), len]

theorem nearestRight_of_fill_after {mask : List Nat} {row : List Bool} {i : Nat} (h : mask.length = row.length)
    (hi : i < row.length) (fill : ∀ j, i < j → j < row.length → mask[j]? = some 2) :
    (nearestRight mask row)[i]? = some none := by
  rw [nearestRight_getElem? h hi]
  refine nearest_of_fill_before none (by simpa using h) (by simp; omega) fun j hj => ?_
  rw [List.getElem?_reverse (by omega)]
  exact fill _ (by omega) (by omega)

theorem nearestRight_of_fill_until {mask : List Nat} {row : List Bool} {i k : Nat} (h : mask.length = row.length)
    (hi : i < k) (hk : k < row.length) (stop : mask[k]? ≠ some 2) (fill : ∀ j, i < j → j < k → mask[j]? = some 2) :
    (nearestRight mask row)[i]? = some row[k]? := by
  have mirror (j : Nat) (hj : j < row.length) : mask.reverse[j]? = mask[row.length - 1 - j]? := by
    rw [List.getElem?_reverse (by omega), h]
  have back : row.length - 1 - (row.length - 1 - k) = k := by omega
  rw [nearestRight_getElem? h (by omega),
    nearest_of_fill_since (k := row.length - 1 - k) none (by simpa using h) (by omega) (by simp; omega)
      (by rwa [mirror _ (by omega), back])
      fun j hj hji => by
        rw [mirror _ (by omega)]
        exact fill _ (by omega) (by omega),
    List.getElem?_reverse (by omega), back]

/-! ### The second pass -/

theorem fillSpans_length {mask : List Nat} {row : List Bool} (h : mask.length = row.length) :
    (fillSpans mask row).length = row.length := by
  have right := nearestRight_length h
  rw [nearestRight] at right
  simp [fillSpans, h, nearest_length, right]

/-- A cell of the second pass by what it reads: a FILL cell from both sides, any other cell itself. -/
theorem fillSpans_getElem? {mask : List Nat} {row : List Bool} {i m : Nat} {c : Bool} {l r : Option Bool}
    (setting : mask[i]? = some m) (cell : row[i]? = some c) (left : (nearest none mask row)[i]? = some l)
    (right : (nearestRight mask row)[i]? = some r) :
    (fillSpans mask row)[i]? = some (if m = 2 then spanValue l r else c) := by
  rw [nearestRight] at right
  simp [fillSpans, List.getElem?_zipWith, List.zip, setting, cell, left, right]

theorem fillSpans_of_not_fill {mask : List Nat} {row : List Bool} {i : Nat} (h : mask.length = row.length)
    (hi : i < row.length) (notFill : mask[i]? ≠ some 2) : (fillSpans mask row)[i]? = row[i]? := by
  have setting := List.getElem?_eq_getElem (h ▸ hi : i < mask.length)
  have cell := List.getElem?_eq_getElem hi
  have left := List.getElem?_eq_getElem ((nearest_length none h).symm ▸ hi)
  have right := List.getElem?_eq_getElem ((nearestRight_length h).symm ▸ hi)
  rw [fillSpans_getElem? setting cell left right, cell, if_neg fun e => notFill (setting.trans (congrArg some e))]

/-- A span of FILL cells takes its value from the cells on its two sides, where the row has them (R31). -/
theorem fillSpans_of_span {mask : List Nat} {row : List Bool} {a b i : Nat} (h : mask.length = row.length)
    (hb : b < row.length) (fill : ∀ j, a ≤ j → j ≤ b → mask[j]? = some 2) (before : a = 0 ∨ mask[a - 1]? ≠ some 2)
    (after : b + 1 = row.length ∨ mask[b + 1]? ≠ some 2) (hai : a ≤ i) (hib : i ≤ b) :
    (fillSpans mask row)[i]? =
      some (spanValue (if a = 0 then none else row[a - 1]?) (if b + 1 = row.length then none else row[b + 1]?)) := by
  have left : (nearest none mask row)[i]? = some (if a = 0 then none else row[a - 1]?) := by
    split
    case isTrue atStart => exact nearest_of_fill_before none h (by omega) fun j hj => fill j (by omega) (by omega)
    case isFalse inside =>
      exact nearest_of_fill_since none h (by omega) (by omega) (before.resolve_left inside)
        fun j _ _ => fill j (by omega) (by omega)
  have right : (nearestRight mask row)[i]? = some (if b + 1 = row.length then none else row[b + 1]?) := by
    split
    case isTrue atEnd => exact nearestRight_of_fill_after h (by omega) fun j _ _ => fill j (by omega) (by omega)
    case isFalse inside =>
      exact nearestRight_of_fill_until h (by omega) (by omega) (after.resolve_left inside)
        fun j _ _ => fill j (by omega) (by omega)
  rw [fillSpans_getElem? (fill i hai hib) (List.getElem?_eq_getElem (by omega)) left right, if_pos rfl]

/-- Settles O14: the first pass decides the cells that are not FILL, the span between two of them reads the two. -/
theorem maskGivesEachCellItsValue : Obligations.MaskGivesEachCellItsValue := by
  intro mask row same _
  have len := forceOff_length same
  have h : mask.length = (forceOff mask row).length := same.trans len.symm
  refine ⟨(fillSpans_length h).trans len, fun i hi off => ?_, fun i hi normal => ?_,
    fun a b hab hb fill before after i hai hib => ?_⟩
  · exact (fillSpans_of_not_fill h (len ▸ hi) (by simp [off])).trans (forceOff_off hi off)
  · exact (fillSpans_of_not_fill h (len ▸ hi) (by simp [normal])).trans (forceOff_normal normal)
  · rw [applyMask, fillSpans_of_span h (len ▸ hb) fill before (len ▸ after) hai hib, len]
    congr 1
    have leftCell := List.getElem?_eq_getElem (l := forceOff mask row) (i := a - 1) (by omega)
    split <;> split
    · rfl
    · have rightCell := List.getElem?_eq_getElem (l := forceOff mask row) (i := b + 1) (by omega)
      simp [spanValue, rightCell]
    · simp [spanValue, leftCell]
    · have rightCell := List.getElem?_eq_getElem (l := forceOff mask row) (i := b + 1) (by omega)
      simp [spanValue, leftCell, rightCell]

end Sys2Proof.Machine
end

section
/-!
PROOF. The runs of a row, bridging and the speck filter (R30, R32, R33), each by the cells that its runs cover; and the order in which a
bar run list is conditioned.
-/

namespace Sys2Proof.Machine

/-- Cell c lies in one of the runs. -/
def Covers (runs : List (Nat × Nat)) (c : Nat) : Prop := ∃ r ∈ runs, r.1 ≤ c ∧ c ≤ r.2

/-- No run ends before it starts, and more than `gap` cells of background lie between any two runs, which ascend. -/
def Separated (gap : Nat) (runs : List (Nat × Nat)) : Prop :=
  (∀ r ∈ runs, r.1 ≤ r.2) ∧ runs.Pairwise fun r q => r.2 + gap + 2 ≤ q.1

/-! ### Cells and separation of run lists -/

theorem covers_nil (c : Nat) : ¬ Covers [] c := by
  simp [Covers]

theorem covers_cons (r : Nat × Nat) (runs : List (Nat × Nat)) (c : Nat) :
    Covers (r :: runs) c ↔ r.1 ≤ c ∧ c ≤ r.2 ∨ Covers runs c := by
  simp [Covers]

/-- A first run that starts at a instead of m covers the cells from a to before m as well. -/
theorem covers_widen {a m b : Nat} (runs : List (Nat × Nat)) (c : Nat) (ham : a ≤ m) (hmb : m ≤ b) :
    Covers ((a, b) :: runs) c ↔ a ≤ c ∧ c < m ∨ Covers ((m, b) :: runs) c := by
  have split : a ≤ c ∧ c ≤ b ↔ a ≤ c ∧ c < m ∨ m ≤ c ∧ c ≤ b := by omega
  rw [covers_cons, covers_cons, split, or_assoc]

theorem separated_nil (gap : Nat) : Separated gap [] := ⟨by simp, .nil⟩

theorem Separated.tail {gap : Nat} {r : Nat × Nat} {runs : List (Nat × Nat)} (h : Separated gap (r :: runs)) :
    Separated gap runs :=
  ⟨fun q hq => h.1 q (.tail r hq), h.2.of_cons⟩

theorem Separated.widen {gap a m b : Nat} {runs : List (Nat × Nat)} (h : Separated gap ((m, b) :: runs)) (ham : a ≤ m) :
    Separated gap ((a, b) :: runs) := by
  obtain ⟨ordered, apart⟩ := h
  have hmb : m ≤ b := ordered (m, b) (.head runs)
  refine ⟨fun r hr => ?_, List.pairwise_cons.2 (List.pairwise_cons.1 apart)⟩
  rcases List.mem_cons.1 hr with rfl | hr
  · exact ham.trans hmb
  · exact ordered r (.tail _ hr)

/-- A run joins at the front of a list when it leaves the gap to the first run there. -/
theorem Separated.cons {gap : Nat} {r q : Nat × Nat} {runs : List (Nat × Nat)} (h : Separated gap (q :: runs))
    (hr : r.1 ≤ r.2) (hq : r.2 + gap + 2 ≤ q.1) : Separated gap (r :: q :: runs) := by
  obtain ⟨ordered, apart⟩ := h
  have hqq : q.1 ≤ q.2 := ordered q (.head runs)
  refine ⟨List.forall_mem_cons.2 ⟨hr, ordered⟩, List.pairwise_cons.2 ⟨List.forall_mem_cons.2 ⟨hq, fun p hp => ?_⟩, apart⟩⟩
  have := List.rel_of_pairwise_cons apart hp
  omega

theorem separated_singleton (gap : Nat) {r : Nat × Nat} (hr : r.1 ≤ r.2) : Separated gap [r] :=
  ⟨by simpa using hr, List.pairwise_singleton _ r⟩

/-! ### The runs of a row (R30) -/

theorem runsOfRow_background (i : Nat) (row : List Bool) : runsOfRow i (false :: row) = runsOfRow (i + 1) row := rfl

/-- A leather cell before a row opens a run of its own, or is the new first cell of the run that starts right after it. -/
theorem runsOfRow_leather (i : Nat) (row : List Bool) :
    (∃ b rest, runsOfRow (i + 1) row = (i + 1, b) :: rest ∧ runsOfRow i (true :: row) = (i, b) :: rest) ∨
      (∀ q rest, runsOfRow (i + 1) row = q :: rest → q.1 ≠ i + 1) ∧
        runsOfRow i (true :: row) = (i, i) :: runsOfRow (i + 1) row := by
  cases h : runsOfRow (i + 1) row with
  | nil => simp [runsOfRow, h]
  | cons q rest =>
    obtain ⟨a, b⟩ := q
    by_cases beside : a = i + 1
    · simp [runsOfRow, h, beside]
    · simp [runsOfRow, h, beside]

theorem runsOfRow_separated (i : Nat) (row : List Bool) :
    Separated 0 (runsOfRow i row) ∧ ∀ r ∈ runsOfRow i row, i ≤ r.1 := by
  induction row generalizing i with
  | nil => exact ⟨separated_nil 0, by simp [runsOfRow]⟩
  | cons cell row ih =>
    obtain ⟨apart, start⟩ := ih (i + 1)
    cases cell with
    | false =>
      rw [runsOfRow_background]
      exact ⟨apart, fun r hr => Nat.le_of_succ_le (start r hr)⟩
    | true =>
      obtain ⟨b, rest, later, now⟩ | ⟨notBeside, now⟩ := runsOfRow_leather i row
      · rw [later] at apart start
        rw [now]
        exact ⟨apart.widen i.le_succ, List.forall_mem_cons.2
          ⟨Nat.le_refl i, fun r hr => Nat.le_of_succ_le (start r (.tail _ hr))⟩⟩
      · rw [now]
        refine ⟨?_, List.forall_mem_cons.2 ⟨Nat.le_refl i, fun r hr => Nat.le_of_succ_le (start r hr)⟩⟩
        cases later : runsOfRow (i + 1) row with
        | nil => exact separated_singleton 0 (Nat.le_refl i)
        | cons q rest =>
          rw [later] at apart start
          have := start q (.head rest)
          have := notBeside q rest later
          exact apart.cons (Nat.le_refl i) (by simp only; omega)

/-- The runs of a row cover exactly its leather cells. -/
theorem covers_runsOfRow (i : Nat) (row : List Bool) (c : Nat) :
    Covers (runsOfRow i row) c ↔ i ≤ c ∧ row[c - i]? = some true := by
  induction row generalizing i with
  | nil => simp [runsOfRow, covers_nil]
  | cons cell row ih =>
    have front : i ≤ c ∧ (cell :: row)[c - i]? = some true ↔
        i ≤ c ∧ c < i + 1 ∧ cell = true ∨ i + 1 ≤ c ∧ row[c - (i + 1)]? = some true := by
      rcases Nat.lt_trichotomy c i with h | rfl | h
      · simp [Nat.not_le.2 h, Nat.not_le.2 (Nat.lt_succ_of_lt h)]
      · simp
      · have later : c - i = c - (i + 1) + 1 := by omega
        simp [later, h.le, Nat.succ_le_of_lt h, Nat.not_lt.2 (Nat.succ_le_of_lt h)]
    rw [front, ← ih (i + 1)]
    cases cell with
    | false => simp [runsOfRow_background]
    | true =>
      obtain ⟨b, rest, later, now⟩ | ⟨-, now⟩ := runsOfRow_leather i row
      · have := (runsOfRow_separated (i + 1) row).1.1 (i + 1, b) (by simp [later])
        rw [now, later, covers_widen rest c i.le_succ this]
        simp
      · rw [now, covers_cons]
        simp

/-! ### Bridging (R32) -/

/-- Cell c lies in a background span of 1 to `bridge` cells between two neighbouring runs. -/
def Bridged (bridge : Nat) (runs : List (Nat × Nat)) (c : Nat) : Prop :=
  ∃ (front back : List (Nat × Nat)) (r q : Nat × Nat), runs = front ++ r :: q :: back ∧ r.2 < c ∧ c < q.1 ∧
    q.1 - r.2 - 1 ≤ bridge

theorem not_bridged_nil (bridge c : Nat) : ¬ Bridged bridge [] c := by
  simp [Bridged]

theorem not_bridged_singleton (bridge : Nat) (r : Nat × Nat) (c : Nat) : ¬ Bridged bridge [r] c := by
  rintro ⟨front, back, p, q, runs, -⟩
  have := congrArg List.length runs
  simp at this
  omega

/-- The span that a cell is bridged in is the first between the runs, or a later one. -/
theorem bridged_cons_cons (bridge : Nat) (r q : Nat × Nat) (runs : List (Nat × Nat)) (c : Nat) :
    Bridged bridge (r :: q :: runs) c ↔
      (r.2 < c ∧ c < q.1 ∧ q.1 - r.2 - 1 ≤ bridge) ∨ Bridged bridge (q :: runs) c := by
  constructor
  · rintro ⟨front, back, r', q', runs, span⟩
    cases front with
    | nil =>
      obtain ⟨rfl, rfl, rfl⟩ : r = r' ∧ q = q' ∧ _ = back := by simpa using runs
      exact .inl span
    | cons p front => exact .inr ⟨front, back, r', q', (List.cons.inj runs).2, span⟩
  · rintro (span | ⟨front, back, r', q', later, span⟩)
    · exact ⟨[], runs, r, q, rfl, span⟩
    · exact ⟨r :: front, back, r', q', by rw [later, List.cons_append], span⟩

/-- Bridging two runs or more: the rest, whose first run keeps its start, is joined to the first run or left apart. -/
theorem bridgeRuns_cons_cons (bridge : Nat) (r q : Nat × Nat) (runs : List (Nat × Nat)) :
    ∃ b rest, bridgeRuns bridge (q :: runs) = (q.1, b) :: rest ∧
      bridgeRuns bridge (r :: q :: runs) =
        if q.1 - r.2 - 1 ≤ bridge then (r.1, b) :: rest else r :: (q.1, b) :: rest := by
  have start : ∃ b rest, bridgeRuns bridge (q :: runs) = (q.1, b) :: rest := by
    rw [bridgeRuns]
    split
    · split
      · exact ⟨_, _, rfl⟩
      · exact ⟨_, _, rfl⟩
    · exact ⟨_, _, rfl⟩
  obtain ⟨b, rest, h⟩ := start
  exact ⟨b, rest, h, by rw [bridgeRuns, h]⟩

/-- No gap of fewer than B + 1 cells is left (R32). -/
theorem bridgeRuns_separated (bridge : Nat) {runs : List (Nat × Nat)} (h : Separated 0 runs) :
    Separated bridge (bridgeRuns bridge runs) := by
  induction runs with
  | nil => exact separated_nil bridge
  | cons r runs ih =>
    have ordered : r.1 ≤ r.2 := h.1 r (.head runs)
    cases runs with
    | nil => exact separated_singleton bridge ordered
    | cons q runs =>
      have apart : r.2 + 0 + 2 ≤ q.1 := List.rel_of_pairwise_cons h.2 (.head runs)
      obtain ⟨b, rest, later, now⟩ := bridgeRuns_cons_cons bridge r q runs
      have rest_separated := later ▸ ih h.tail
      rw [now]
      split
      case isTrue near => exact rest_separated.widen (by omega)
      case isFalse far => exact rest_separated.cons ordered (by simp only; omega)

/-- Bridging sets the bridged cells and no others (R32). -/
theorem covers_bridgeRuns (bridge : Nat) {runs : List (Nat × Nat)} (h : Separated 0 runs) (c : Nat) :
    Covers (bridgeRuns bridge runs) c ↔ Covers runs c ∨ Bridged bridge runs c := by
  induction runs with
  | nil => simp [bridgeRuns, not_bridged_nil]
  | cons r runs ih =>
    have ordered : r.1 ≤ r.2 := h.1 r (.head runs)
    cases runs with
    | nil => simp [bridgeRuns, not_bridged_singleton]
    | cons q runs =>
      have apart : r.2 + 0 + 2 ≤ q.1 := List.rel_of_pairwise_cons h.2 (.head runs)
      obtain ⟨b, rest, later, now⟩ := bridgeRuns_cons_cons bridge r q runs
      have ends : q.1 ≤ b := (later ▸ bridgeRuns_separated bridge h.tail).1 (q.1, b) (.head rest)
      have ih := later ▸ ih h.tail
      rw [now, covers_cons, bridged_cons_cons]
      split
      case isTrue near =>
        have span : r.1 ≤ c ∧ c < q.1 ↔ (r.1 ≤ c ∧ c ≤ r.2) ∨ (r.2 < c ∧ c < q.1) := by omega
        rw [covers_widen rest c (by omega) ends, ih, span]
        simp only [near, and_true]
        exact or_or_or_comm
      case isFalse far =>
        rw [covers_cons, ih]
        simp only [far, and_false, false_or, or_assoc]

/-! ### The speck filter and the order of the steps (R30, R33) -/

theorem mem_dropSpecks {speck : Nat} {runs : List (Nat × Nat)} (h : ∀ r ∈ runs, r.1 ≤ r.2) (r : Nat × Nat) :
    r ∈ dropSpecks speck runs ↔ r ∈ runs ∧ speck < r.2 - r.1 + 1 := by
  rw [dropSpecks, List.mem_filter, decide_eq_true_iff]
  refine and_congr_right fun hr => ?_
  rw [Nat.sub_add_comm (h r hr)]

theorem Ccu.mirror_eq_true (c : Ccu) : c.mirror = true ↔ c.word 3204 = 1 := beq_iff_eq

/-- Settles O15: the runs of a row and bridging by the cells they cover, the speck filter by its runs. -/
theorem runsBridgingAndSpecksDecideEachCell : Obligations.RunsBridgingAndSpecksDecideEachCell := by
  refine ⟨fun row => ?_, fun bridge speck runs ordered apart => ?_, fun c barRuns => ?_⟩
  · have cells (c : Nat) : row[c]? = some true ↔ Covers (runsOfRow 0 row) c := by simp [covers_runsOfRow]
    obtain ⟨⟨ordered, apart⟩, -⟩ := runsOfRow_separated 0 row
    refine ⟨cells, apart, fun r hr => ⟨ordered r hr, ?_⟩⟩
    have last : row[r.2]? = some true := (cells r.2).2 ⟨r, hr, ordered r hr, Nat.le_refl _⟩
    exact (List.getElem?_eq_some_iff.1 last).1
  · have h : Separated 0 runs := ⟨ordered, apart⟩
    have bridged := bridgeRuns_separated bridge h
    exact ⟨covers_bridgeRuns bridge h, bridged.2, mem_dropSpecks bridged.1⟩
  · simp only [Ccu.condition, conditionRow, Ccu.mirror_eq_true]
    rfl

end Sys2Proof.Machine
end

section
/-!
PROOF. Relabelling, the closures of gaps and leather, and the hole test (R59 to R63): what releasing entries leaves of the table, the gap
roots that close and their order, the runs that bound a gap, and the record of a hole.
-/

namespace Sys2Proof.Machine

/-! ### The table: writes and releases (R41, R44) -/

theorem Rtk.region_setRegion_same {k : Rtk} {i : Nat} (r : Region) (h : i < k.table.length) :
    (k.setRegion i r).region i = r := by
  simp [Rtk.setRegion, Rtk.region, List.getD_eq_getElem?_getD, h]

theorem Rtk.region_setRegion_ne (k : Rtk) {i j : Nat} (r : Region) (h : j ≠ i) :
    (k.setRegion i r).region j = k.region j := by
  simp [Rtk.setRegion, Rtk.region, List.getD_eq_getElem?_getD, List.getElem?_set_ne h.symm]

theorem Rtk.length_release (k : Rtk) (i : Nat) : (k.release i).table.length = k.table.length := List.length_set

theorem Rtk.region_release_same {k : Rtk} {i : Nat} (h : i < k.table.length) :
    (k.release i).region i = Region.cleared (k.region i).kind i :=
  Rtk.region_setRegion_same (k := { k with stack := i :: k.stack }) _ h

theorem Rtk.region_release_ne (k : Rtk) {i j : Nat} (h : j ≠ i) : (k.release i).region j = k.region j :=
  Rtk.region_setRegion_ne { k with stack := i :: k.stack } _ h

theorem Rtk.releases_stack (l : List Nat) (k : Rtk) : (l.foldl Rtk.release k).stack = l.reverse ++ k.stack := by
  induction l generalizing k with
  | nil => rfl
  | cons i l ih => simp [ih, Rtk.release, Rtk.setRegion]

/-- A released entry is cleared with its kind kept, so a second release of it leaves it as it is. -/
theorem Rtk.region_releases (l : List Nat) {k : Rtk} {j : Nat} (h : j < k.table.length) :
    (l.foldl Rtk.release k).region j = if j ∈ l then Region.cleared (k.region j).kind j else k.region j := by
  induction l generalizing k with
  | nil => simp
  | cons i l ih =>
    rw [List.foldl_cons, ih (by rwa [Rtk.length_release])]
    by_cases same : j = i
    · subst same
      simp [Rtk.region_release_same h, Region.cleared]
    · simp [same, Rtk.region_release_ne k same]

/-- Releases change the table and the stack alone. -/
theorem Rtk.releases_rest (l : List Nat) (k : Rtk) :
    l.foldl Rtk.release k = { k with table := (l.foldl Rtk.release k).table, stack := (l.foldl Rtk.release k).stack } := by
  induction l generalizing k with
  | nil => rfl
  | cons i l ih => rw [List.foldl_cons, ih]; rfl

/-! ### Relabelling and the release of MERGED entries (R59) -/

/-- The MERGED entries in ascending order. -/
def Rtk.mergedEntries (k : Rtk) : List Nat := (List.range 64).filter fun i => (k.region i).state = .merged

theorem Rtk.mem_mergedEntries (k : Rtk) {i : Nat} (h : i < 64) : i ∈ k.mergedEntries ↔ (k.region i).state = .merged := by
  simp [Rtk.mergedEntries, h]

/-- Stage 5 is the releases of the MERGED entries of the relabelled tracker, whose table is still the old one. -/
theorem Rtk.stage5_eq_releases (k : Rtk) :
    k.stage5 = k.mergedEntries.foldl Rtk.release { k with prev := k.relabel k.prev, cur := k.relabel k.cur } := by
  simp only [Rtk.stage5, Rtk.mergedEntries, beq_eq_decide]
  rfl

theorem Rtk.region_stage5 {k : Rtk} (table : k.table.length = 64) {i : Nat} (h : i < 64) :
    k.stage5.region i = if (k.region i).state = .merged then Region.cleared (k.region i).kind i else k.region i := by
  rw [k.stage5_eq_releases, Rtk.region_releases _ (table ▸ h)]
  simp only [k.mem_mergedEntries h]
  rfl

/-- What stage 5 leaves but for the table, for any reading of how a span is relabelled. -/
theorem Rtk.stage5_rest (k : Rtk) {relabelled : Span → Span} (h : ∀ x, k.relabelSpan x = relabelled x) :
    k.stage5 = { k with
      table := k.stage5.table
      stack := k.mergedEntries.reverse ++ k.stack
      prev := ⟨k.prev.runs.map relabelled, k.prev.gaps.map relabelled⟩
      cur := ⟨k.cur.runs.map relabelled, k.cur.gaps.map relabelled⟩ } := by
  obtain rfl : k.relabelSpan = relabelled := funext h
  rw [k.stage5_eq_releases, Rtk.releases_rest]
  simp only [Rtk.releases_stack, Rtk.relabel]

/-! ### The closing gap roots and their order (R60) -/

theorem mem_addNew {i j : Nat} {l : List Nat} : i ∈ addNew j l ↔ i ∈ l ∨ i = j := by
  unfold addNew
  split
  case isTrue old =>
    have old : j ∈ l := by simpa using old
    exact ⟨.inl, fun h => h.elim id fun same => same ▸ old⟩
  case isFalse => simp

theorem addNew_of_mem {i : Nat} {l : List Nat} (h : i ∈ l) : addNew i l = l := by
  simp [addNew, h]

theorem addNew_of_not_mem {i : Nat} {l : List Nat} (h : i ∉ l) : addNew i l = l ++ [i] := by
  simp [addNew, h]

/-- Entry i is an OPEN gap root that the line has not touched. -/
def Rtk.UntouchedGap (k : Rtk) (i : Nat) : Prop :=
  (k.region i).kind = .gap ∧ (k.region i).state = .opened ∧ (k.region i).touched = false

/-- The tracker with the first gaps of its previous line in place of all of them: what the walk over them has seen. -/
def Rtk.withPrevGaps (k : Rtk) (gaps : List Span) : Rtk := { k with prev := { k.prev with gaps := gaps } }

theorem Rtk.closingGaps_nil (k : Rtk) : (k.withPrevGaps []).closingGaps = [] := rfl

theorem Rtk.closingGaps_concat_untracked (k : Rtk) (gaps : List Span) {g : Span} (label : g.label = .untracked) :
    (k.withPrevGaps (gaps ++ [g])).closingGaps = (k.withPrevGaps gaps).closingGaps := by
  unfold Rtk.closingGaps Rtk.withPrevGaps
  rw [List.foldl_append, List.foldl_cons, List.foldl_nil, label]
  rfl

theorem Rtk.closingGaps_concat_entry (k : Rtk) (gaps : List Span) {g : Span} {i : Nat} (label : g.label = .entry i) :
    (k.withPrevGaps (gaps ++ [g])).closingGaps =
      if (k.region i).kind = .gap && (k.region i).state = .opened && !(k.region i).touched then
        addNew i (k.withPrevGaps gaps).closingGaps
      else (k.withPrevGaps gaps).closingGaps := by
  unfold Rtk.closingGaps Rtk.withPrevGaps
  rw [List.foldl_append, List.foldl_cons, List.foldl_nil, label]
  rfl

/-- The walk over the gaps meets one more: it belongs to an untouched gap root, or it adds nothing. -/
theorem Rtk.closingGaps_concat (k : Rtk) (gaps : List Span) (g : Span) :
    (∃ i, g.label = .entry i ∧ k.UntouchedGap i ∧
      (k.withPrevGaps (gaps ++ [g])).closingGaps = addNew i (k.withPrevGaps gaps).closingGaps) ∨
    ((∀ i, g.label = .entry i → ¬ k.UntouchedGap i) ∧
      (k.withPrevGaps (gaps ++ [g])).closingGaps = (k.withPrevGaps gaps).closingGaps) := by
  cases label : g.label with
  | untracked => exact .inr ⟨nofun, k.closingGaps_concat_untracked gaps label⟩
  | entry i =>
    rw [k.closingGaps_concat_entry gaps label]
    split
    case isTrue untouched => exact .inl ⟨i, rfl, by simpa [Rtk.UntouchedGap, and_assoc] using untouched, rfl⟩
    case isFalse other =>
      refine .inr ⟨fun j same => ?_, rfl⟩
      obtain rfl := Label.entry.inj same
      simpa [Rtk.UntouchedGap] using other

theorem Rtk.mem_closingGaps (k : Rtk) (gaps : List Span) (i : Nat) :
    i ∈ (k.withPrevGaps gaps).closingGaps ↔ k.UntouchedGap i ∧ ∃ g ∈ gaps, g.label = .entry i := by
  induction gaps using List.reverseRecOn with
  | nil => simp [closingGaps_nil]
  | append_singleton gaps g ih =>
    simp only [List.mem_append, List.mem_singleton, or_and_right, exists_or, exists_eq_left, and_or_left]
    obtain ⟨j, label, untouched, walk⟩ | ⟨noRoot, walk⟩ := k.closingGaps_concat gaps g
    · rw [walk, mem_addNew, ih, label, Label.entry.injEq]
      refine or_congr_right ⟨fun same => ⟨same ▸ untouched, same.symm⟩, fun h => h.2.symm⟩
    · rw [walk, ih]
      exact ⟨.inl, fun h => h.resolve_right fun ⟨untouched, label⟩ => noRoot i label untouched⟩

theorem Rtk.closingGaps_nodup (k : Rtk) (gaps : List Span) : (k.withPrevGaps gaps).closingGaps.Nodup := by
  induction gaps using List.reverseRecOn with
  | nil => exact .nil
  | append_singleton gaps g ih =>
    obtain ⟨j, -, -, walk⟩ | ⟨-, walk⟩ := k.closingGaps_concat gaps g
    · rw [walk]
      by_cases old : j ∈ (k.withPrevGaps gaps).closingGaps
      · rwa [addNew_of_mem old]
      · rw [addNew_of_not_mem old]
        exact List.nodup_append.2 ⟨ih, List.nodup_singleton j, fun i hi _ hj same => old (List.mem_singleton.1 hj ▸ same ▸ hi)⟩
    · rwa [walk]

/-- A gap of entry i comes before every gap of entry j. -/
def GapBefore (gaps : List Span) (i j : Nat) : Prop :=
  ∃ front g back, gaps = front ++ g :: back ∧ g.label = .entry i ∧ ∀ x ∈ front, x.label ≠ .entry j

theorem GapBefore.concat {gaps : List Span} {i j : Nat} (h : GapBefore gaps i j) (g : Span) : GapBefore (gaps ++ [g]) i j := by
  obtain ⟨front, g', back, rfl, rest⟩ := h
  exact ⟨front, g', back ++ [g], by simp, rest⟩

theorem gapBefore_of_absent {gaps : List Span} {i j : Nat} (present : ∃ g ∈ gaps, g.label = .entry i)
    (absent : ∀ g ∈ gaps, g.label ≠ .entry j) : GapBefore gaps i j := by
  obtain ⟨g, mem, label⟩ := present
  obtain ⟨front, back, rfl⟩ := List.append_of_mem mem
  exact ⟨front, g, back, rfl, label, fun x hx => absent x (List.mem_append_left _ hx)⟩

/-- A root that the walk adds has no gap among those it has seen, while each root it holds has one. -/
theorem Rtk.closingGaps_pairwise (k : Rtk) (gaps : List Span) :
    (k.withPrevGaps gaps).closingGaps.Pairwise (GapBefore gaps) := by
  induction gaps using List.reverseRecOn with
  | nil => exact .nil
  | append_singleton gaps g ih =>
    have kept : (k.withPrevGaps gaps).closingGaps.Pairwise (GapBefore (gaps ++ [g])) := ih.imp fun h => h.concat g
    obtain ⟨j, -, untouched, walk⟩ | ⟨-, walk⟩ := k.closingGaps_concat gaps g
    · rw [walk]
      by_cases old : j ∈ (k.withPrevGaps gaps).closingGaps
      · rwa [addNew_of_mem old]
      · rw [addNew_of_not_mem old]
        have absent : ∀ x ∈ gaps, x.label ≠ .entry j := fun x hx label =>
          old ((k.mem_closingGaps gaps j).2 ⟨untouched, x, hx, label⟩)
        refine List.pairwise_append.2 ⟨kept, List.pairwise_singleton _ _, fun i hi _ hj => ?_⟩
        obtain rfl := List.mem_singleton.1 hj
        exact (gapBefore_of_absent ((k.mem_closingGaps gaps i).1 hi).2 absent).concat g
    · rwa [walk]

/-! ### The close of leather (R63) -/

theorem Region.closeLeather_eq (exhaustion : Word32) (truncated : Bool) (r : Region) :
    r.closeLeather exhaustion truncated =
      if r.kind = .leather ∧ r.state = .opened ∧ r.touched = false then
        { r with
          state := .closedWait
          ring := []
          flags := { r.flags with
            exhausted := r.flags.exhausted || r.epoch != exhaustion
            truncated := r.flags.truncated || truncated } }
      else r := by
  simp only [Region.closeLeather, Bool.and_eq_true, decide_eq_true_eq, Bool.not_eq_true', and_assoc]

theorem Rtk.region_stage7 (truncated : Bool) {k : Rtk} {i : Nat} (h : i < k.table.length) :
    (k.stage7 truncated).region i = (k.region i).closeLeather k.exhaustion truncated := by
  simp [Rtk.stage7, Rtk.region, List.getD_eq_getElem?_getD, h]

/-! ### The hole test (R60) -/

/-- The runs of a line: none ends before it starts, and a background cell lies between any two, which ascend. -/
def SpansApart (runs : List Span) : Prop :=
  (∀ r ∈ runs, r.first ≤ r.last) ∧ runs.Pairwise fun r q => r.last + 1 < q.first

/-- At most one run of a line holds a cell. -/
theorem SpansApart.eq_of_cell {runs : List Span} (h : SpansApart runs) {a b : Span} (ha : a ∈ runs) (hb : b ∈ runs) {x : Nat}
    (inA : a.first ≤ x ∧ x ≤ a.last) (inB : b.first ≤ x ∧ x ≤ b.last) : a = b := by
  by_contra different
  have either : runs.Pairwise fun r q => r.last + 1 < q.first ∨ q.last + 1 < r.first := h.2.imp .inl
  have symmetric : Std.Symm fun r q : Span => r.last + 1 < q.first ∨ q.last + 1 < r.first := ⟨fun _ _ => Or.symm⟩
  have apart := either.forall ha hb different
  omega

theorem find?_eq_some_iff_of_unique {α : Type} {p : α → Bool} {l : List α}
    (unique : ∀ x ∈ l, ∀ y ∈ l, p x → p y → x = y) (x : α) : l.find? p = some x ↔ x ∈ l ∧ p x := by
  refine ⟨fun found => ⟨List.mem_of_find?_eq_some found, List.find?_some found⟩, fun ⟨mem, holds⟩ => ?_⟩
  obtain ⟨y, found⟩ := Option.isSome_iff_exists.1 (List.find?_isSome.2 ⟨x, mem, holds⟩)
  rw [found, unique x mem y (List.mem_of_find?_eq_some found) holds (List.find?_some found)]

theorem SpansApart.find?_left {runs : List Span} (h : SpansApart runs) (g a : Span) :
    runs.find? (fun r => r.last + 1 == g.first) = some a ↔ a ∈ runs ∧ a.last + 1 = g.first := by
  rw [find?_eq_some_iff_of_unique, beq_iff_eq]
  intro a ha b hb besideA besideB
  rw [beq_iff_eq] at besideA besideB
  have := h.1 a ha
  have := h.1 b hb
  exact h.eq_of_cell ha hb (x := a.last) (by omega) (by omega)

theorem SpansApart.find?_right {runs : List Span} (h : SpansApart runs) (g b : Span) :
    runs.find? (fun r => r.first == g.last + 1) = some b ↔ b ∈ runs ∧ b.first = g.last + 1 := by
  rw [find?_eq_some_iff_of_unique, beq_iff_eq]
  intro a ha b hb besideA besideB
  rw [beq_iff_eq] at besideA besideB
  have := h.1 a ha
  have := h.1 b hb
  exact h.eq_of_cell ha hb (x := a.first) (by omega) (by omega)

theorem SpansApart.coveredBy_eq_some {runs : List Span} (h : SpansApart runs) {g : Span} (ordered : g.first ≤ g.last) (c : Span) :
    coveredBy runs g.first g.last = some c ↔ c ∈ runs ∧ c.first ≤ g.first ∧ g.last ≤ c.last := by
  rw [coveredBy, find?_eq_some_iff_of_unique, Bool.and_eq_true, decide_eq_true_iff, decide_eq_true_iff]
  intro a ha b hb coversA coversB
  rw [Bool.and_eq_true, decide_eq_true_iff, decide_eq_true_iff] at coversA coversB
  exact h.eq_of_cell ha hb (x := g.first) (by omega) (by omega)

/-- A gap of the previous line stands between two of its runs and under a run of the present line, all three of one root. -/
def Rtk.EnclosedBy (k : Rtk) (root : Nat) (g : Span) : Prop :=
  (∃ a ∈ k.prev.runs, a.last + 1 = g.first ∧ a.label = .entry root) ∧
    (∃ b ∈ k.prev.runs, b.first = g.last + 1 ∧ b.label = .entry root) ∧
    ∃ c ∈ k.cur.runs, c.first ≤ g.first ∧ g.last ≤ c.last ∧ c.label = .entry root

theorem Rtk.boundLabels_eq_some (k : Rtk) (g : Span) (labels : List Label) :
    k.boundLabels g = some labels ↔
      ∃ a b c, k.prev.runs.find? (fun r => r.last + 1 == g.first) = some a ∧
        k.prev.runs.find? (fun r => r.first == g.last + 1) = some b ∧
        coveredBy k.cur.runs g.first g.last = some c ∧ [a.label, b.label, c.label] = labels := by
  unfold Rtk.boundLabels
  split
  case h_1 a b c left right top => simp [left, right, top]
  case h_2 missing =>
    refine ⟨nofun, ?_⟩
    rintro ⟨a, b, c, left, right, top, -⟩
    exact (missing a b c left right top).elim

/-- All three bounds of a gap are found and carry one root's label exactly when the root encloses it. -/
theorem Rtk.enclosedBy_iff_boundLabels {k : Rtk} (prev : SpansApart k.prev.runs) (cur : SpansApart k.cur.runs) {g : Span}
    (ordered : g.first ≤ g.last) (root : Nat) :
    k.EnclosedBy root g ↔ ∃ labels, k.boundLabels g = some labels ∧ ∀ l ∈ labels, l = .entry root := by
  simp only [Rtk.boundLabels_eq_some, prev.find?_left, prev.find?_right, cur.coveredBy_eq_some ordered]
  constructor
  · rintro ⟨⟨a, ha, left, labelA⟩, ⟨b, hb, right, labelB⟩, c, hc, start, stop, labelC⟩
    exact ⟨_, ⟨a, b, c, ⟨ha, left⟩, ⟨hb, right⟩, ⟨hc, start, stop⟩, rfl⟩, by simp [labelA, labelB, labelC]⟩
  · rintro ⟨_, ⟨a, b, c, ⟨ha, left⟩, ⟨hb, right⟩, ⟨hc, start, stop⟩, rfl⟩, same⟩
    exact ⟨⟨a, ha, left, same _ (by simp)⟩, ⟨b, hb, right, same _ (by simp)⟩, c, hc, start, stop, same _ (by simp)⟩

theorem commonLabel_eq_some (labels : List Label) (root : Nat) :
    commonLabel labels = some root ↔ (∃ l, l ∈ labels) ∧ ∀ l ∈ labels, l = .entry root := by
  unfold commonLabel
  split
  case h_1 i rest =>
    constructor
    · intro h
      obtain ⟨same, rfl⟩ : (∀ l ∈ rest, l = .entry i) ∧ i = root := by simpa using h
      exact ⟨⟨_, .head rest⟩, List.forall_mem_cons.2 ⟨rfl, same⟩⟩
    · rintro ⟨-, same⟩
      obtain ⟨first, same⟩ := List.forall_mem_cons.1 same
      obtain rfl := Label.entry.inj first
      simpa using same
  case h_2 labels notEntry =>
    refine ⟨nofun, fun ⟨⟨l, hl⟩, same⟩ => ?_⟩
    obtain ⟨l, rest, rfl⟩ := List.exists_cons_of_ne_nil (List.ne_nil_of_mem hl)
    exact absurd (congrArg (· :: rest) (same l (.head rest))) (notEntry root rest)

theorem Rtk.boundLabels_nonempty {k : Rtk} {g : Span} {labels : List Label} (h : k.boundLabels g = some labels) :
    ∃ l, l ∈ labels := by
  obtain ⟨a, b, c, -, -, -, rfl⟩ := (k.boundLabels_eq_some g labels).1 h
  exact ⟨a.label, .head _⟩

theorem Rtk.mem_bounds (k : Rtk) (gaps : List Span) (l : Label) :
    l ∈ ((gaps.map k.boundLabels).flatMap fun b => b.getD []) ↔
      ∃ g ∈ gaps, ∃ labels, k.boundLabels g = some labels ∧ l ∈ labels := by
  rw [List.flatMap_map, List.mem_flatMap]
  refine exists_congr fun g => and_congr_right fun _ => ?_
  cases k.boundLabels g <;> simp

theorem Rtk.mem_lastGaps (k : Rtk) (i : Nat) (g : Span) : g ∈ k.lastGaps i ↔ g ∈ k.prev.gaps ∧ g.label = .entry i := by
  simp [Rtk.lastGaps]

/-- The hole test over the labels found: there is a last-line gap, and each has its bounds, all of the root (R60). -/
theorem Rtk.holeRoot_eq_some (k : Rtk) (i root : Nat) :
    k.holeRoot i = some root ↔ (k.region i).openTop = false ∧ (∃ g, g ∈ k.lastGaps i) ∧
      ∀ g ∈ k.lastGaps i, ∃ labels, k.boundLabels g = some labels ∧ ∀ l ∈ labels, l = .entry root := by
  have found : ((k.lastGaps i).map k.boundLabels).all Option.isSome = true ↔
      ∀ g ∈ k.lastGaps i, ∃ labels, k.boundLabels g = some labels := by
    simp [Option.isSome_iff_exists]
  unfold Rtk.holeRoot
  cases openTop : (k.region i).openTop with
  | true => simp
  | false =>
    simp only [Bool.false_eq_true, if_false, true_and]
    split
    case isTrue all =>
      simp only [commonLabel_eq_some, Rtk.mem_bounds]
      constructor
      · rintro ⟨⟨_, g, hg, -⟩, same⟩
        refine ⟨⟨g, hg⟩, fun g hg => ?_⟩
        obtain ⟨labels, bounds⟩ := found.1 all g hg
        exact ⟨labels, bounds, fun l hl => same l ⟨g, hg, labels, bounds, hl⟩⟩
      · rintro ⟨⟨g, hg⟩, same⟩
        obtain ⟨labels, bounds, -⟩ := same g hg
        obtain ⟨l, hl⟩ := boundLabels_nonempty bounds
        refine ⟨⟨l, g, hg, labels, bounds, hl⟩, ?_⟩
        rintro l ⟨g, hg, labels, bounds, hl⟩
        obtain ⟨_, again, same⟩ := same g hg
        obtain rfl := Option.some.inj (bounds.symm.trans again)
        exact same l hl
    case isFalse missing =>
      refine ⟨nofun, fun ⟨_, same⟩ => absurd (found.2 fun g hg => ?_) missing⟩
      obtain ⟨labels, bounds, -⟩ := same g hg
      exact ⟨labels, bounds⟩

/-- The hole test by cells: each last-line gap is enclosed by the root (R60). -/
theorem Rtk.holeRoot_iff_enclosedBy {k : Rtk} (prev : SpansApart k.prev.runs) (cur : SpansApart k.cur.runs)
    (ordered : ∀ g ∈ k.prev.gaps, g.first ≤ g.last) (i root : Nat) :
    k.holeRoot i = some root ↔ (k.region i).openTop = false ∧ (∃ g ∈ k.prev.gaps, g.label = .entry i) ∧
      ∀ g ∈ k.prev.gaps, g.label = .entry i → k.EnclosedBy root g := by
  simp only [Rtk.holeRoot_eq_some, Rtk.mem_lastGaps, and_imp]
  refine and_congr_right fun _ => and_congr_right fun _ => forall₃_congr fun g hg _ => ?_
  exact (enclosedBy_iff_boundLabels prev cur (ordered g hg) root).symm

/-! ### The record of a hole, and a closing gap (R61, R62) -/

theorem Region.addHole_kind (now exhaustion : Word32) (r gap : Region) : (r.addHole now exhaustion gap).kind = r.kind := by
  unfold Region.addHole
  dsimp only
  repeat' split
  all_goals rfl

theorem Region.addHole_of_room {r : Region} (now exhaustion : Word32) (gap : Region) (h : r.holes.length < 12) :
    r.addHole now exhaustion gap = { r with
      holes := r.holes ++ [⟨gap.area, now⟩]
      flags := { r.flags with exhausted := r.flags.exhausted || gap.epoch != exhaustion } } := by
  by_cases epoch : gap.epoch = exhaustion <;> simp [Region.addHole, epoch, h]

theorem Region.addHole_of_full {r : Region} (now exhaustion : Word32) (gap : Region) (h : 12 ≤ r.holes.length) :
    r.addHole now exhaustion gap = { r with
      holeOverSum := sat64 r.holeOverSum gap.area
      holeOverCount := sat16 r.holeOverCount 1
      flags := { r.flags with
        exhausted := r.flags.exhausted || gap.epoch != exhaustion
        holeOverflow := true
        overrange := r.flags.overrange || over64 r.holeOverSum gap.area } } := by
  by_cases epoch : gap.epoch = exhaustion <;> simp [Region.addHole, epoch, Nat.not_lt.2 h]

theorem Rtk.closeGap_of_bay {k : Rtk} {i : Nat} (now : Word32) (h : k.holeRoot i = none) : k.closeGap now i = k.release i := by
  rw [Rtk.closeGap, h]

theorem Rtk.closeGap_of_hole {k : Rtk} {i root : Nat} (now : Word32) (h : k.holeRoot i = some root) :
    k.closeGap now i = (k.setRegion root ((k.region root).addHole now k.exhaustion (k.region i))).release i := by
  rw [Rtk.closeGap, h]

theorem Rtk.closeGap_stack (now : Word32) (k : Rtk) (i : Nat) : (k.closeGap now i).stack = i :: k.stack := by
  unfold Rtk.closeGap
  split <;> rfl

/-- The entry of a closing gap is released with its kind; a recorded hole has no part in it, whichever entry takes it. -/
theorem Rtk.region_closeGap_self (now : Word32) {k : Rtk} {i : Nat} (h : i < k.table.length) :
    (k.closeGap now i).region i = Region.cleared (k.region i).kind i := by
  cases hole : k.holeRoot i with
  | none => rw [closeGap_of_bay now hole, Rtk.region_release_same h]
  | some root =>
    rw [closeGap_of_hole now hole, Rtk.region_release_same (by simpa [Rtk.setRegion] using h)]
    congr 1
    by_cases self : i = root
    · subst self
      rw [Rtk.region_setRegion_same _ h, Region.addHole_kind]
    · rw [Rtk.region_setRegion_ne _ _ self]

theorem Rtk.region_closeGap_root {k : Rtk} {i root : Nat} (now : Word32) (hole : k.holeRoot i = some root) (other : root ≠ i)
    (inside : root < k.table.length) :
    (k.closeGap now i).region root = (k.region root).addHole now k.exhaustion (k.region i) := by
  rw [closeGap_of_hole now hole, Rtk.region_release_ne _ other, Rtk.region_setRegion_same _ inside]

theorem Rtk.region_closeGap_other {k : Rtk} {i j : Nat} (now : Word32) (self : j ≠ i)
    (notRoot : ∀ root, k.holeRoot i = some root → j ≠ root) : (k.closeGap now i).region j = k.region j := by
  cases hole : k.holeRoot i with
  | none => rw [closeGap_of_bay now hole, Rtk.region_release_ne _ self]
  | some root =>
    rw [closeGap_of_hole now hole, Rtk.region_release_ne _ self, Rtk.region_setRegion_ne _ _ (notRoot root hole)]

/-- Settles O19: stage 5 by its releases, stage 6 by the walk over the gaps, stage 7 entry by entry, the hole test by cells, and a
closing gap by what it leaves of each entry. -/
theorem holeTestAndRecording : Obligations.HoleTestAndRecording := by
  refine ⟨fun k table => ?stage5, fun now k => ?stage6, fun truncated k => ?stage7, ?holeTest, fun now k i inTable => ?closing⟩
  case stage5 =>
    exact ⟨k.stage5_rest fun ⟨first, last, width, label⟩ => by cases label <;> rfl, fun i h => Rtk.region_stage5 table h⟩
  case stage6 =>
    refine ⟨k.closingGaps, rfl, k.closingGaps_nodup k.prev.gaps, fun i => ?_, k.closingGaps_pairwise k.prev.gaps⟩
    exact (k.mem_closingGaps k.prev.gaps i).trans (by simp only [Rtk.UntouchedGap, and_assoc])
  case stage7 =>
    refine ⟨rfl, List.length_map _, fun i h => ?_⟩
    exact (Rtk.region_stage7 truncated h).trans (Region.closeLeather_eq k.exhaustion truncated (k.region i))
  case holeTest =>
    exact fun k i root prev prevApart cur curApart ordered =>
      Rtk.holeRoot_iff_enclosedBy ⟨prev, prevApart⟩ ⟨cur, curApart⟩ ordered i root
  case closing =>
    refine ⟨k.closeGap_stack now i, Rtk.region_closeGap_self now inTable, fun bay j self => ?_, fun root hole other inside => ?_⟩
    · exact Rtk.region_closeGap_other now self (by simp [bay])
    · rw [Rtk.region_closeGap_root now hole other inside]
      refine ⟨fun j self notRoot => Rtk.region_closeGap_other now self fun q hq => ?_,
        Region.addHole_of_room now k.exhaustion (k.region i), Region.addHole_of_full now k.exhaustion (k.region i)⟩
      obtain rfl := Option.some.inj (hole.symm.trans hq)
      exact notRoot

end Sys2Proof.Machine
end

section
/-!
PROOF. The hide record (R78 to R84): what stage 4 sums over a hole list, the steps of a counted area by the rounding mode, and the lowest
class whose band holds them.
-/

namespace Sys2Proof.Machine

/-! ### Saturating sums (section 0.5) -/

theorem over64_iff {a b : Nat} : over64 a b = true ↔ 2 ^ 64 - 1 < a + b := decide_eq_true_iff

/-- A sum that saturated once and is raised again saturates as the exact sum does. -/
theorem sat64_min (x a : Nat) : sat64 (min x (2 ^ 64 - 1)) a = min (x + a) (2 ^ 64 - 1) := by
  simp only [sat64, max64]
  omega

theorem sat16_min (x a : Nat) : sat16 (min x 65535) a = min (x + a) 65535 := by
  simp only [sat16, max16]
  omega

/-- The exact sum is beyond 64 bits when it was before, or when the sum that saturated goes beyond them now. -/
theorem over64_min (x a : Nat) : (2 ^ 64 - 1 < x ∨ over64 (min x (2 ^ 64 - 1)) a = true) ↔ 2 ^ 64 - 1 < x + a := by
  rw [over64_iff]
  omega

/-! ### Holes (R78, R79) -/

/-- The holes that fill: those of at most the small-hole limit (R78). -/
def smallHoles (limit : Nat) (holes : List Hole) : List Hole := holes.filter fun h => h.area ≤ limit * fauPerMm2

/-- The holes that deduct: those above the small-hole limit (R78). -/
def largeHoles (limit : Nat) (holes : List Hole) : List Hole := holes.filter fun h => limit * fauPerMm2 < h.area

def areaSum (holes : List Hole) : Nat := (holes.map Hole.area).sum

/-- A tally stands for two exact sums and two exact counts: each saturates, a sum with OVERRANGE (R79). -/
structure HoleTally.Saturates (t : HoleTally) (fill deduct small large : Nat) : Prop where
  filled : t.filled = min fill (2 ^ 64 - 1)
  deducted : t.deducted = min deduct (2 ^ 64 - 1)
  small : t.small = min small 65535
  large : t.large = min large 65535
  overrange : t.overrange = true ↔ 2 ^ 64 - 1 < fill ∨ 2 ^ 64 - 1 < deduct

theorem HoleTally.Saturates.addSmall {t : HoleTally} {fill deduct small large limit area : Nat}
    (h : t.Saturates fill deduct small large) (fits : area ≤ limit * fauPerMm2) :
    (t.addHole limit area).Saturates (fill + area) deduct (small + 1) large := by
  rw [HoleTally.addHole, if_pos fits, h.filled, h.small, sat64_min, sat16_min]
  exact ⟨rfl, h.deducted, rfl, h.large, by rw [Bool.or_eq_true, h.overrange, or_right_comm, over64_min]⟩

/-- An area that deducts, of a number of holes, raises the sum and the count of the large ones. -/
theorem HoleTally.Saturates.deduct {t : HoleTally} {fill deduct small large : Nat} (area count : Nat)
    (h : t.Saturates fill deduct small large) :
    HoleTally.Saturates
      { t with
        deducted := sat64 t.deducted area, large := sat16 t.large count, overrange := t.overrange || over64 t.deducted area }
      fill (deduct + area) small (large + count) := by
  rw [h.deducted, h.large, sat64_min, sat16_min]
  exact ⟨h.filled, rfl, h.small, rfl, by rw [Bool.or_eq_true, h.overrange, or_assoc, over64_min]⟩

theorem HoleTally.Saturates.addLarge {t : HoleTally} {fill deduct small large limit area : Nat}
    (h : t.Saturates fill deduct small large) (beyond : ¬ area ≤ limit * fauPerMm2) :
    (t.addHole limit area).Saturates fill (deduct + area) small (large + 1) := by
  rw [HoleTally.addHole, if_neg beyond]
  exact h.deduct area 1

/-- The tally of a hole list, from any tally (R78). -/
theorem HoleTally.Saturates.fold {limit : Nat} {t : HoleTally} {fill deduct small large : Nat} (holes : List Hole)
    (h : t.Saturates fill deduct small large) :
    (holes.foldl (fun t h => HoleTally.addHole limit t h.area) t).Saturates
      (fill + areaSum (smallHoles limit holes)) (deduct + areaSum (largeHoles limit holes))
      (small + (smallHoles limit holes).length) (large + (largeHoles limit holes).length) := by
  induction holes generalizing t fill deduct small large with
  | nil => exact h
  | cons hole holes ih =>
    by_cases fits : hole.area ≤ limit * fauPerMm2
    · simpa [smallHoles, largeHoles, areaSum, fits, Nat.not_lt.2 fits, Nat.add_assoc, Nat.add_comm 1] using ih (h.addSmall fits)
    · simpa [smallHoles, largeHoles, areaSum, fits, Nat.not_le.1 fits, Nat.add_assoc, Nat.add_comm 1] using ih (h.addLarge fits)

/-- Stage 4: the hole list, and the holes beyond the twelfth with the large ones (R78, R79). -/
theorem Region.holeTally_saturates (o : Region) (limit : Nat) :
    (o.holeTally limit).Saturates (areaSum (smallHoles limit o.holes)) (areaSum (largeHoles limit o.holes) + o.holeOverSum)
      (smallHoles limit o.holes).length ((largeHoles limit o.holes).length + o.holeOverCount) := by
  have empty : (⟨0, 0, 0, 0, false⟩ : HoleTally).Saturates 0 0 0 0 := ⟨rfl, rfl, rfl, rfl, by decide⟩
  have listed := empty.fold (limit := limit) o.holes
  simp only [Nat.zero_add] at listed
  exact listed.deduct o.holeOverSum o.holeOverCount

/-! ### The counted area (R80) -/

theorem Device.makeRecord_filled_of_fits {t : Terms} {o : Region} (d : Device)
    (fits : o.area + (o.holeTally t.smallHole).filled ≤ 2 ^ 64 - 1) :
    (d.makeRecord t o).filled = (o.holeTally t.smallHole).filled :=
  if_neg (mt over64_iff.1 (Nat.not_lt.2 fits))

/-- Of a sum beyond 64 bits the record calls filled what brings the measured area to the counted one. -/
theorem Device.makeRecord_filled_of_beyond {t : Terms} {o : Region} (d : Device)
    (beyond : 2 ^ 64 - 1 < o.area + (o.holeTally t.smallHole).filled) :
    (d.makeRecord t o).filled = (d.makeRecord t o).counted - (d.makeRecord t o).measured :=
  if_pos (over64_iff.2 beyond)

theorem Device.makeRecord_measured (t : Terms) (o : Region) (d : Device) : (d.makeRecord t o).measured = o.area := rfl

theorem Device.makeRecord_counted (t : Terms) (o : Region) (d : Device) :
    (d.makeRecord t o).counted = min (o.area + (o.holeTally t.smallHole).filled) (2 ^ 64 - 1) := rfl

theorem Device.makeRecord_counted_eq_add {t : Terms} {o : Region} (d : Device) (fits : o.area ≤ 2 ^ 64 - 1) :
    (d.makeRecord t o).counted = (d.makeRecord t o).measured + (d.makeRecord t o).filled := by
  have counted := d.makeRecord_counted t o
  have measured := d.makeRecord_measured t o
  rcases Nat.lt_or_ge (2 ^ 64 - 1) (o.area + (o.holeTally t.smallHole).filled) with beyond | within
  · have filled := d.makeRecord_filled_of_beyond beyond
    omega
  · have filled := d.makeRecord_filled_of_fits within
    omega

theorem Device.makeRecord_overrange (t : Terms) (o : Region) (d : Device) :
    (d.makeRecord t o).flags.overrange = true ↔
      o.flags.overrange = true ∨ (o.holeTally t.smallHole).overrange = true ∨
        2 ^ 64 - 1 < o.area + (o.holeTally t.smallHole).filled := by
  simp only [Device.makeRecord, Bool.or_eq_true, or_assoc, over64_iff]

/-- SUSPECT is the OR of five flags: HOLE_OVERFLOW and NO_ANCHOR have no part in it (R84). -/
theorem HideFlags.suspect_iff (f : HideFlags) :
    f.suspect = true ↔
      f.exhausted = true ∨ f.edge = true ∨ f.interpolated = true ∨ f.truncated = true ∨ f.overrange = true := by
  simp [HideFlags.suspect, or_assoc]

/-! ### Classes (R82) -/

/-- The band of a class holds the steps. -/
def TermClass.holds (steps : Nat) (c : TermClass) : Bool := c.low ≤ steps && steps ≤ c.high

theorem TermClass.holds_iff {steps : Nat} {c : TermClass} : c.holds steps = true ↔ c.low ≤ steps ∧ steps ≤ c.high := by
  simp [TermClass.holds]

theorem classOf_cons (steps k : Nat) (c : TermClass) (rest : List TermClass) :
    classOf steps k (c :: rest) = if c.holds steps = true then some (k, c) else classOf steps (k + 1) rest := rfl

theorem classOf_fst (steps k : Nat) (classes : List TermClass) :
    (classOf steps k classes).map Prod.fst = (classes.findIdx? (TermClass.holds steps)).map (k + ·) := by
  induction classes generalizing k with
  | nil => rfl
  | cons c rest ih =>
    rw [classOf_cons, List.findIdx?_cons]
    by_cases band : c.holds steps = true
    · rw [if_pos band, if_pos band]
      rfl
    · rw [if_neg band, if_neg band, ih, Option.map_map]
      congr 1
      funext i
      simp only [Function.comp_apply]
      omega

/-- The class of the steps is the lowest one whose band holds them. -/
theorem classOf_eq_some_iff {steps k : Nat} {classes : List TermClass} :
    (classOf steps 0 classes).map Prod.fst = some k ↔
      (∃ c, classes[k]? = some c ∧ c.low ≤ steps ∧ steps ≤ c.high) ∧
        ∀ j < k, ∀ c, classes[j]? = some c → ¬ (c.low ≤ steps ∧ steps ≤ c.high) := by
  simp only [classOf_fst, Nat.zero_add, Option.map_id', List.findIdx?_eq_some_iff_getElem, ← TermClass.holds_iff,
    List.getElem?_eq_some_iff]
  constructor
  · rintro ⟨inside, band, lower⟩
    exact ⟨⟨_, ⟨inside, rfl⟩, band⟩, fun j before c ⟨_, hc⟩ => hc ▸ lower j before⟩
  · rintro ⟨⟨c, ⟨inside, rfl⟩, band⟩, lower⟩
    exact ⟨inside, band, fun j before => lower j before _ ⟨_, rfl⟩⟩

/-- Settles O22: the counted area by its two cases, the hole tally by its exact sums, the class by the search over the bands. -/
theorem recordCarriesCountedAreaClassAndFlags : Obligations.RecordCarriesCountedAreaClassAndFlags := by
  refine ⟨fun d t o fits => ?area, fun o limit => ?tally, fun d t o => ?flags⟩
  case area =>
    have counted := d.makeRecord_counted t o
    have measured := d.makeRecord_measured t o
    have overrange := d.makeRecord_overrange t o
    refine ⟨measured, d.makeRecord_counted_eq_add fits, counted, d.makeRecord_filled_of_fits, fun beyond => ?_, rfl, rfl, rfl,
      overrange⟩
    have filled := d.makeRecord_filled_of_beyond beyond
    have raised := overrange.2 (.inr (.inr beyond))
    exact ⟨filled, by omega, raised, (HideFlags.suspect_iff _).2 (by simp only [raised, or_true])⟩
  case tally =>
    obtain ⟨filled, deducted, small, large, overrange⟩ := o.holeTally_saturates limit
    exact ⟨filled, deducted, small, large, overrange⟩
  case flags =>
    exact ⟨rfl, fun k => classOf_eq_some_iff, rfl, rfl, rfl, rfl, decide_eq_true_iff, Option.isNone_iff_eq_none,
      HideFlags.suspect_iff _, rfl, rfl, rfl, rfl, rfl, rfl⟩

/-! ### Rounding (R81) -/

theorem roundSteps_down (a f : Nat) (positive : 0 < f) :
    roundSteps .down a f * f ≤ a ∧ a < (roundSteps .down a f + 1) * f :=
  ⟨Nat.div_mul_le_self a f, Nat.lt_mul_of_div_lt (Nat.lt_succ_self _) positive⟩

theorem roundSteps_nearest (a f : Nat) (positive : 0 < f) :
    2 * (roundSteps .nearest a f * f) ≤ 2 * a + f ∧ 2 * a + f < 2 * ((roundSteps .nearest a f + 1) * f) := by
  have parts := Nat.div_add_mod' a f
  have rest := Nat.mod_lt a positive
  simp only [roundSteps]
  split <;> simp only [Nat.add_mul, Nat.one_mul, Nat.zero_mul] <;> omega

theorem roundSteps_up (a f : Nat) (positive : 0 < f) : a ≤ roundSteps .up a f * f ∧ roundSteps .up a f * f < a + f := by
  have parts := Nat.div_add_mod' a f
  have rest := Nat.mod_lt a positive
  simp only [roundSteps]
  split <;> simp only [Nat.add_mul, Nat.one_mul, Nat.zero_mul] <;> omega

/-- Rounding adds at most one step to the quotient. -/
theorem roundSteps_le (m : Rounding) (a f : Nat) : roundSteps m a f ≤ a / f + 1 := by
  cases m <;> simp only [roundSteps]
  case down => omega
  all_goals split <;> omega

/-- A hundredth of a square foot is the smallest step of a legal unit and resolution (R97). -/
theorem le_fauPerStep {u : SaleUnit} {r : Resolution} {f : Nat} (legal : fauPerStep u r = some f) : 60884936294400 ≤ f := by
  cases u <;> cases r <;> simp only [fauPerStep, Option.some.injEq, reduceCtorEq] at legal <;> omega

theorem div_fauPerStep_le {u : SaleUnit} {r : Resolution} {a f : Nat} (legal : fauPerStep u r = some f) (fits : a ≤ 2 ^ 64 - 1) :
    a / f ≤ 302977 :=
  calc a / f ≤ (2 ^ 64 - 1) / 60884936294400 := Nat.div_le_div fits (le_fauPerStep legal) (by decide)
    _ = 302977 := by decide

/-- Settles O23: each mode by the quotient and the remainder, the range by the smallest step. -/
theorem roundedStepsFollowTheRoundingMode : Obligations.RoundedStepsFollowTheRoundingMode := by
  refine ⟨fun a f positive => ?modes, fun u r m a f legal fits => ?range, fun d t o => rfl⟩
  case modes =>
    obtain ⟨downLow, downHigh⟩ := roundSteps_down a f positive
    obtain ⟨nearLow, nearHigh⟩ := roundSteps_nearest a f positive
    exact ⟨downLow, downHigh, nearLow, nearHigh, roundSteps_up a f positive⟩
  case range =>
    have quotient := div_fauPerStep_le legal fits
    exact ⟨quotient, (roundSteps_le m a f).trans (Nat.succ_le_succ quotient)⟩

end Sys2Proof.Machine
end

section
/-!
PROOF. Stage 9 (R85 to R87, R115 to R117): which head an anchor is assigned, what the stamp decision leaves in each of its cases, what
the tests of an admission answer, and the place that an admitted entry takes.
-/

namespace Sys2Proof.Machine

/-! ### Head assignment (R86) -/

/-- The head is a candidate for a cell: its entry is enabled and its zone holds the cell. -/
def Device.zoneHolds (d : Device) (cell : Nat) (n : Fin 4) : Prop :=
  (d.headEntry n).enable = true ∧ (d.headEntry n).zoneFirst ≤ cell ∧ cell ≤ (d.headEntry n).zoneLast

theorem Device.mem_candidates {d : Device} {cell : Nat} {n : Fin 4} : n ∈ d.candidates cell ↔ d.zoneHolds cell n := by
  have all : n ∈ headNumbers := by revert n; decide
  simp [Device.candidates, Device.zoneHolds, all, and_assoc]

theorem Device.candidates_pairwise (d : Device) (cell : Nat) : (d.candidates cell).Pairwise (· < ·) :=
  List.Pairwise.filter _ (by decide)

theorem Device.assignHead_of_none {d : Device} {cell : Nat} (no : ∀ n, ¬ d.zoneHolds cell n) :
    d.assignHead cell = .error .skippedNoHead := by
  have empty : d.candidates cell = [] := List.eq_nil_iff_forall_not_mem.2 fun n hn => no n (Device.mem_candidates.1 hn)
  rw [Device.assignHead, empty]

theorem Device.assignHead_of_off {d : Device} {cell : Nat} {m : Fin 4} (holds : d.zoneHolds cell m)
    (off : ∀ n, d.zoneHolds cell n → (d.head n).state = .disabled) : d.assignHead cell = .error .skippedHeadOff := by
  have search : ((d.candidates cell).find? fun n => (d.head n).state != .disabled) = none :=
    List.find?_eq_none.2 fun n hn => by simp [off n (Device.mem_candidates.1 hn)]
  obtain ⟨first, rest, heads⟩ := List.exists_cons_of_ne_nil (List.ne_nil_of_mem (Device.mem_candidates.2 holds))
  rw [heads] at search
  simp only [Device.assignHead, heads, search]

/-- The lowest candidate that is not DISABLED becomes the assigned head. -/
theorem Device.assignHead_of_on {d : Device} {cell : Nat} {n : Fin 4} (holds : d.zoneHolds cell n)
    (on : (d.head n).state ≠ .disabled) (lower : ∀ m < n, d.zoneHolds cell m → (d.head m).state = .disabled) :
    d.assignHead cell = .ok n := by
  have search : ((d.candidates cell).find? fun n => (d.head n).state != .disabled) = some n := by
    obtain ⟨front, back, heads⟩ := List.append_of_mem (Device.mem_candidates.2 holds)
    have sorted := d.candidates_pairwise cell
    rw [heads, List.pairwise_append] at sorted
    obtain ⟨_, _, before⟩ := sorted
    refine List.find?_eq_some_iff_append.2 ⟨by simpa using on, front, back, heads, fun m hm => ?_⟩
    have candidate : d.zoneHolds cell m := Device.mem_candidates.1 (heads ▸ List.mem_append_left _ hm)
    simp [lower m (before m hm n List.mem_cons_self) candidate]
  obtain ⟨first, rest, heads⟩ := List.exists_cons_of_ne_nil (List.ne_nil_of_mem (Device.mem_candidates.2 holds))
  rw [heads] at search
  simp only [Device.assignHead, heads, search]

/-! ### The stamp decision (R85 to R87) -/

theorem Device.stampDecision_of_policy {t : Terms} {r : HideRecord} (i : Nat) (d : Device) (suspect : r.flags.suspect = true)
    (skip : t.suspect = .skip) : d.stampDecision t i r = d.setRecord i (some { r with disposition := .skippedPolicy }) := by
  simp [Device.stampDecision, suspect, skip]

/-- The policy does not skip the hide. -/
def Terms.stamps (t : Terms) (r : HideRecord) : Prop := r.flags.suspect = false ∨ t.suspect ≠ .skip

/-- Past the policy, the anchor decides, and then the assignment of a head. -/
theorem Device.stampDecision_of_stamps {t : Terms} {r : HideRecord} (i : Nat) (d : Device) (stamps : t.stamps r) :
    d.stampDecision t i r =
      match r.anchor with
      | none => d.setRecord i (some { r with disposition := .skippedNoAnchor })
      | some a =>
        match d.assignHead a.cell with
        | .error answer => d.setRecord i (some { r with disposition := answer })
        | .ok n => d.askAdmission t i r a n := by
  refine if_neg fun h => ?_
  obtain ⟨suspect, skip⟩ := Bool.and_eq_true_iff.1 h
  rcases stamps with notSuspect | other
  · simp [notSuspect] at suspect
  · exact other (by simpa using skip)

theorem Device.stampDecision_of_noAnchor {t : Terms} {r : HideRecord} (i : Nat) (d : Device) (stamps : t.stamps r)
    (noAnchor : r.anchor = none) :
    d.stampDecision t i r = d.setRecord i (some { r with disposition := .skippedNoAnchor }) := by
  rw [d.stampDecision_of_stamps i stamps, noAnchor]

theorem Device.stampDecision_of_error {t : Terms} {r : HideRecord} {a : Anchor} {answer : Disposition} (i : Nat) (d : Device)
    (stamps : t.stamps r) (anchor : r.anchor = some a) (refused : d.assignHead a.cell = .error answer) :
    d.stampDecision t i r = d.setRecord i (some { r with disposition := answer }) := by
  simp only [d.stampDecision_of_stamps i stamps, anchor, refused]

theorem Device.stampDecision_of_ok {t : Terms} {r : HideRecord} {a : Anchor} {n : Fin 4} (i : Nat) (d : Device)
    (stamps : t.stamps r) (anchor : r.anchor = some a) (assigned : d.assignHead a.cell = .ok n) :
    d.stampDecision t i r = d.askAdmission t i r a n := by
  simp only [d.stampDecision_of_stamps i stamps, anchor, assigned]

/-- The entry handed to admission (R87). -/
def stampEntry (t : Terms) (slot : Nat) (r : HideRecord) (fire : Position) : StampEntry :=
  let (face, force, star) := stampMarks t r.flags.suspect (r.classIndex.bind fun k => t.classes[k]?)
  ⟨r.number, slot, fire, wheelTarget face r.steps r.resolution star, force⟩

theorem stampEntry_of_noClass {t : Terms} {r : HideRecord} (slot : Nat) (fire : Position) (noClass : r.classIndex = none) :
    stampEntry t slot r fire =
      ⟨r.number, slot, fire, wheelTarget 0 r.steps r.resolution (r.flags.suspect && t.suspect == .stars), 15⟩ := by
  rw [stampEntry, noClass]
  rfl

theorem stampEntry_of_class {t : Terms} {r : HideRecord} {k : Nat} {c : TermClass} (slot : Nat) (fire : Position)
    (index : r.classIndex = some k) (row : t.classes[k]? = some c) :
    stampEntry t slot r fire =
      ⟨r.number, slot, fire, wheelTarget c.face r.steps r.resolution (r.flags.suspect && t.suspect == .stars), c.force⟩ := by
  rw [stampEntry, index, Option.bind_some, row]
  rfl

theorem Device.askAdmission_of_refused {t : Terms} {r : HideRecord} {a : Anchor} {n : Fin 4} {d : Device} {answer : Disposition}
    (i : Nat)
    (refused : admissionRefusal d.bpu.position (d.headEntry n) (d.head n) (a.pos + BitVec.ofNat 48 (d.headEntry n).offset)
      = some answer) :
    d.askAdmission t i r a n =
      d.setRecord i
        (some { r with assigned := some (n, a.pos + BitVec.ofNat 48 (d.headEntry n).offset), disposition := answer }) := by
  simp only [Device.askAdmission, refused]

theorem Device.askAdmission_of_admitted {t : Terms} {r : HideRecord} {a : Anchor} {n : Fin 4} {d : Device} (i : Nat)
    (admitted : admissionRefusal d.bpu.position (d.headEntry n) (d.head n) (a.pos + BitVec.ofNat 48 (d.headEntry n).offset)
      = none) :
    d.askAdmission t i r a n =
      (d.setRecord i (some { r with assigned := some (n, a.pos + BitVec.ofNat 48 (d.headEntry n).offset) })).admitEntry n
        (stampEntry t i r (a.pos + BitVec.ofNat 48 (d.headEntry n).offset)) := by
  simp only [Device.askAdmission, admitted, stampEntry]

/-! ### The tests of an admission (R116) -/

/-- Test 1: the fire position is less than the lead margin ahead, or not ahead at all. -/
def HeadEntry.late (t : HeadEntry) (position fire : Position) : Prop :=
  posDiff fire position < t.leadMargin ∨ posDiff fire position ≤ 0

/-- Test 2: the head works on its front entry, and the fire position is not ahead of that entry's. -/
def Head.passes (h : Head) (fire : Position) : Prop :=
  (h.state = .setting ∨ h.state = .ready ∨ h.state = .striking) ∧ ∃ e rest, h.queue = e :: rest ∧ posDiff fire e.fire ≤ 0

/-- Test 3: a neighbour in the queue is nearer than the spacing. -/
def HeadEntry.near (t : HeadEntry) (fire : Position) (front back : List StampEntry) : Prop :=
  (∃ e, front.getLast? = some e ∧ posDiff fire e.fire < t.spacing) ∨
    ∃ e, back.head? = some e ∧ posDiff e.fire fire < t.spacing

theorem HeadEntry.late_iff {t : HeadEntry} {position fire : Position} :
    t.late position fire ↔ (posDiff fire position < t.leadMargin || posDiff fire position ≤ 0) = true := by
  rw [Bool.or_eq_true, decide_eq_true_eq, decide_eq_true_eq, HeadEntry.late]

theorem HeadState.committed_iff {s : HeadState} : s.committed = true ↔ s = .setting ∨ s = .ready ∨ s = .striking := by
  cases s <;> decide

theorem Head.passes_iff {h : Head} {fire : Position} :
    h.passes fire ↔ (h.state.committed && (match h.queue with | e :: _ => !ahead fire e.fire | [] => false)) = true := by
  rw [Bool.and_eq_true, HeadState.committed_iff, Head.passes]
  cases h.queue with
  | nil => simp
  | cons e rest => simp [ahead]

theorem HeadEntry.near_iff {t : HeadEntry} {fire : Position} {front back : List StampEntry} :
    t.near fire front back ↔ crowded t.spacing fire front back = true := by
  rw [crowded, Bool.or_eq_true, HeadEntry.near]
  cases front.getLast? <;> cases back.head? <;> simp

section
variable {position fire : Position} {t : HeadEntry} {h : Head}

theorem admissionRefusal_of_late (late : t.late position fire) : admissionRefusal position t h fire = some .skippedTooLate :=
  if_pos (HeadEntry.late_iff.1 late)

theorem admissionRefusal_of_passes (onTime : ¬ t.late position fire) (passes : h.passes fire) :
    admissionRefusal position t h fire = some .skippedOrder :=
  (if_neg (mt HeadEntry.late_iff.2 onTime)).trans (if_pos (Head.passes_iff.1 passes))

/-- Past the first two tests the neighbours decide, and then the room of the queue. -/
theorem admissionRefusal_of_follows (onTime : ¬ t.late position fire) (follows : ¬ h.passes fire) :
    admissionRefusal position t h fire =
      if crowded t.spacing fire (splitQueue fire h.queue).1 (splitQueue fire h.queue).2 then some .skippedCrowded
      else if 8 ≤ h.queue.length then some .skippedCrowded
      else none :=
  (if_neg (mt HeadEntry.late_iff.2 onTime)).trans (if_neg (mt Head.passes_iff.2 follows))

theorem admissionRefusal_of_crowd (onTime : ¬ t.late position fire) (follows : ¬ h.passes fire)
    (crowd : t.near fire (splitQueue fire h.queue).1 (splitQueue fire h.queue).2 ∨ 8 ≤ h.queue.length) :
    admissionRefusal position t h fire = some .skippedCrowded := by
  rw [admissionRefusal_of_follows onTime follows]
  rcases crowd with near | full
  · rw [if_pos (HeadEntry.near_iff.1 near)]
  · rw [if_pos full, ite_self]

theorem admissionRefusal_of_free (onTime : ¬ t.late position fire) (follows : ¬ h.passes fire)
    (free : ¬ t.near fire (splitQueue fire h.queue).1 (splitQueue fire h.queue).2) (room : h.queue.length < 8) :
    admissionRefusal position t h fire = none := by
  rw [admissionRefusal_of_follows onTime follows, if_neg (mt HeadEntry.near_iff.2 free), if_neg (Nat.not_le.2 room)]

/-- What is admitted has no neighbour nearer than the spacing. -/
theorem crowded_of_admitted (admitted : admissionRefusal position t h fire = none) :
    crowded t.spacing fire (splitQueue fire h.queue).1 (splitQueue fire h.queue).2 = false := by
  have onTime : ¬ t.late position fire := fun late => by simp [admissionRefusal_of_late late] at admitted
  have follows : ¬ h.passes fire := fun passes => by simp [admissionRefusal_of_passes onTime passes] at admitted
  have free : ¬ t.near fire (splitQueue fire h.queue).1 (splitQueue fire h.queue).2 := fun near => by
    simp [admissionRefusal_of_crowd onTime follows (.inl near)] at admitted
  exact Bool.eq_false_iff.2 (mt HeadEntry.near_iff.2 free)

end

/-! ### The place of an admitted entry (R117) -/

/-- The queue with the entry in its place: behind the leading entries that are not ahead of it, before the rest. -/
def placeEntry (e : StampEntry) (queue : List StampEntry) : List StampEntry :=
  (splitQueue e.fire queue).1 ++ e :: (splitQueue e.fire queue).2

theorem placeEntry_eq_cons (e : StampEntry) (queue : List StampEntry) : ∃ f rest, placeEntry e queue = f :: rest :=
  List.exists_cons_of_ne_nil (List.append_ne_nil_of_right_ne_nil _ (List.cons_ne_nil _ _))

theorem Device.admitEntry_eq (n : Fin 4) (e : StampEntry) (d : Device) :
    d.admitEntry n e = (d.setHead n { d.head n with queue := placeEntry e (d.head n).queue }).startSetting n false := rfl

theorem Device.startSetting_of_busy {n : Fin 4} {d : Device} (atTick : Bool)
    (busy : (d.head n).state ≠ .idle ∨ d.lct.lineState = .faulted) : d.startSetting n atTick = d := by
  unfold Device.startSetting
  dsimp only
  split
  · rfl
  · exact if_neg fun h => by rcases busy with state | line <;> simp_all [Device.isFaulted]

theorem Device.startSetting_of_idle {n : Fin 4} {d : Device} {e : StampEntry} {rest : List StampEntry} (atTick : Bool)
    (front : (d.head n).queue = e :: rest) (idle : (d.head n).state = .idle) (line : d.lct.lineState ≠ .faulted) :
    d.startSetting n atTick = d.setHead n { d.head n with
      state := .setting, retryUsed := false, lastShift := some e.shiftWord
      timer := Timer.start (d.headEntry n).setTime atTick } := by
  simp [Device.startSetting, front, idle, Device.isFaulted, line]

/-- Of two writes of one head the second stays. -/
theorem Device.setHead_setHead (n : Fin 4) (h k : Head) (d : Device) : (d.setHead n h).setHead n k = d.setHead n k := by
  simp [Device.setHead]

theorem Device.startSetting_setHead {n : Fin 4} {h : Head} {d : Device} {e : StampEntry} {rest : List StampEntry} (atTick : Bool)
    (four : d.sth.heads.length = 4) (front : h.queue = e :: rest) (idle : h.state = .idle)
    (line : d.lct.lineState ≠ .faulted) :
    (d.setHead n h).startSetting n atTick = d.setHead n { h with
      state := .setting, retryUsed := false, lastShift := some e.shiftWord
      timer := Timer.start (d.headEntry n).setTime atTick } := by
  have written : (d.setHead n h).head n = h := Device.head_setHead four
  rw [Device.startSetting_of_idle (d := d.setHead n h) atTick (by rwa [written]) (by rwa [written]) line, written,
    Device.setHead_setHead, Device.headEntry_setHead]

theorem Device.admitEntry_of_busy {n : Fin 4} {d : Device} (e : StampEntry) (four : d.sth.heads.length = 4)
    (busy : (d.head n).state ≠ .idle ∨ d.lct.lineState = .faulted) :
    d.admitEntry n e = d.setHead n { d.head n with queue := placeEntry e (d.head n).queue } := by
  rw [Device.admitEntry_eq]
  exact Device.startSetting_of_busy false (by rwa [Device.head_setHead four])

theorem Device.admitEntry_of_idle {n : Fin 4} {d : Device} {e f : StampEntry} {rest : List StampEntry}
    (four : d.sth.heads.length = 4) (idle : (d.head n).state = .idle) (line : d.lct.lineState ≠ .faulted)
    (front : placeEntry e (d.head n).queue = f :: rest) :
    d.admitEntry n e = d.setHead n { d.head n with
      queue := placeEntry e (d.head n).queue, state := .setting, retryUsed := false, lastShift := some f.shiftWord
      timer := Timer.start (d.headEntry n).setTime false } :=
  Device.startSetting_setHead (h := { d.head n with queue := placeEntry e (d.head n).queue }) false four front idle line

/-- Settles O24: the decision by the assignment of a head and the answer of admission, the admission by its tests in order, the queue by the
place that the entry takes. -/
theorem stampDecisionAndAdmissionTestsComeInOrder : Obligations.StampDecisionAndAdmissionTestsComeInOrder := by
  refine ⟨fun t i r d => ⟨d.stampDecision_of_policy i, fun stamps => ⟨fun noAnchor => ?noAnchor, fun a anchor => ?anchored⟩⟩,
    fun position t h fire => ⟨splitQueue_append fire h.queue, admissionRefusal_of_late, admissionRefusal_of_passes,
      admissionRefusal_of_crowd, admissionRefusal_of_free⟩,
    fun fire q => ⟨splitQueue_front fire q, splitQueue_back fire q⟩,
    fun n e d four => ⟨Device.admitEntry_of_busy e four, fun idle line => ?setting⟩,
    fun position t h e admitted positive rises => ?rising⟩
  case noAnchor => exact d.stampDecision_of_noAnchor i stamps noAnchor
  case anchored =>
    refine ⟨fun no => ?noHead, fun ⟨m, holds⟩ off => ?headOff, fun n holds on lower => ?assigned⟩
    case noHead => exact d.stampDecision_of_error i stamps anchor (Device.assignHead_of_none no)
    case headOff => exact d.stampDecision_of_error i stamps anchor (Device.assignHead_of_off holds off)
    case assigned =>
      have assigned := d.stampDecision_of_ok i stamps anchor (Device.assignHead_of_on holds on lower)
      refine ⟨fun answer refused => assigned.trans (Device.askAdmission_of_refused i refused), fun admitted =>
        ⟨stampEntry t i r _, rfl, rfl, rfl, fun noClass => ?_, fun k c index row => ?_,
          assigned.trans (Device.askAdmission_of_admitted i admitted)⟩⟩
      · rw [stampEntry_of_noClass i _ noClass]
        exact ⟨rfl, rfl⟩
      · rw [stampEntry_of_class i _ index row]
        exact ⟨rfl, rfl⟩
  case setting =>
    obtain ⟨f, rest, front⟩ := placeEntry_eq_cons e (d.head n).queue
    exact ⟨f, rest, front, Device.admitEntry_of_idle four idle line front⟩
  case rising =>
    rw [← splitQueue_append e.fire h.queue] at rises
    exact queueRises_insert rises positive (crowded_of_admitted admitted) (splitQueue_back e.fire h.queue)

end Sys2Proof.Machine
end

section
/-!
PROOF. The evaluation of an offer (R75 to R77, R85 to R90): the lowest empty slot, what the stamp decision leaves of the evaluator and the
heads, and the pack feed, which reads neither.
-/

namespace Sys2Proof.Machine

/-! ### The lowest empty slot (R77) -/

theorem withIndex_find?_fst {α : Type} (p : α → Bool) (k : Nat) (l : List α) :
    ((withIndex k l).find? fun x => p x.2).map Prod.fst = (l.findIdx? p).map (k + ·) := by
  induction l generalizing k with
  | nil => rfl
  | cons a l ih =>
    rw [withIndex, List.find?_cons, List.findIdx?_cons]
    cases p a with
    | true => rfl
    | false =>
      simp only [ih, Bool.false_eq_true, if_false, Option.map_map]
      congr 1
      funext i
      simp only [Function.comp_apply]
      omega

theorem Hev.emptySlot_eq (h : Hev) : h.emptySlot = h.store.findIdx? Option.isNone := by
  simp only [Hev.emptySlot, withIndex_find?_fst, Nat.zero_add, Option.map_id']

theorem Hev.emptySlot_of_full {h : Hev} (full : ∀ r ∈ h.store, r ≠ none) : h.emptySlot = none := by
  rw [Hev.emptySlot_eq, List.findIdx?_eq_none_iff]
  exact fun r hr => Option.isNone_eq_false_iff.2 (Option.isSome_iff_ne_none.2 (full r hr))

theorem Hev.emptySlot_of_lowest {h : Hev} {i : Nat} (empty : h.store[i]? = some none)
    (lower : ∀ j < i, ∃ r, h.store[j]? = some (some r)) : h.emptySlot = some i := by
  obtain ⟨inside, isEmpty⟩ := List.getElem?_eq_some_iff.1 empty
  rw [Hev.emptySlot_eq, List.findIdx?_eq_some_iff_getElem]
  refine ⟨inside, by rw [isEmpty]; rfl, fun j before => ?_⟩
  obtain ⟨r, hr⟩ := lower j before
  obtain ⟨_, taken⟩ := List.getElem?_eq_some_iff.1 hr
  simp [taken]

/-! ### The three answers (R75 to R77) -/

theorem Device.evaluate_of_small {d : Device} {t : Terms} {o : Region} (terms : d.hev.terms = some t)
    (small : o.area < t.minHide * t.stepFau) :
    d.evaluate o = (.scrap, { d with hev := { d.hev with scraps := sat16 d.hev.scraps 1 } }) := by
  simp only [Device.evaluate, terms, if_pos small]

theorem Device.evaluate_of_full {d : Device} {t : Terms} {o : Region} (terms : d.hev.terms = some t)
    (large : t.minHide * t.stepFau ≤ o.area) (full : ∀ r ∈ d.hev.store, r ≠ none) :
    d.evaluate o = (.refuse, d.raise .storeFull) := by
  simp only [Device.evaluate, terms, if_neg (Nat.not_lt.2 large), Hev.emptySlot_of_full full]

theorem Device.evaluate_of_slot {d : Device} {t : Terms} {o : Region} {i : Nat} (terms : d.hev.terms = some t)
    (large : t.minHide * t.stepFau ≤ o.area) (slot : d.hev.emptySlot = some i) :
    d.evaluate o = (.take, d.takeOffer t i o) := by
  simp only [Device.evaluate, terms, if_neg (Nat.not_lt.2 large), slot]

/-! ### The evaluator and the heads put beside the other blocks -/

/-- The device with another evaluator and other heads. -/
def Device.withStamps (h : Hev) (s : Sth) (d : Device) : Device := { d with hev := h, sth := s }

theorem Device.withStamps_touches (h : Hev) (s : Sth) (d : Device) : Touches [.hev, .sth] d (d.withStamps h s) :=
  (Touches.of_hev d h).comp (Touches.of_sth _ s)

/-- A head starts setting by the heads and the line state alone. -/
theorem Device.withStamps_startSetting (n : Fin 4) (atTick : Bool) (h : Hev) (d : Device) :
    d.withStamps h (d.startSetting n atTick).sth = (d.withStamps h d.sth).startSetting n atTick := by
  by_cases idle : (d.head n).state = .idle ∧ d.lct.lineState ≠ .faulted
  · cases front : (d.head n).queue with
    | nil => simp only [Device.startSetting, show (d.withStamps h d.sth).head n = d.head n from rfl, front]
    | cons e rest =>
      rw [Device.startSetting_of_idle atTick front idle.1 idle.2,
        Device.startSetting_of_idle (d := d.withStamps h d.sth) atTick front idle.1 idle.2]
      rfl
  · have busy : (d.head n).state ≠ .idle ∨ d.lct.lineState = .faulted := by tauto
    rw [Device.startSetting_of_busy atTick busy, Device.startSetting_of_busy (d := d.withStamps h d.sth) atTick busy]

theorem Device.withStamps_admitEntry (n : Fin 4) (e : StampEntry) (h : Hev) (d : Device) :
    d.withStamps h (d.admitEntry n e).sth = (d.withStamps h d.sth).admitEntry n e :=
  Device.withStamps_startSetting n false h (d.setHead n { d.head n with queue := placeEntry e (d.head n).queue })

/-- The operation writes a record into a slot, with an assigned head and a disposition, and the heads; what it writes does not rest
on the evaluator. -/
def Device.WritesDecided (i : Nat) (r : HideRecord) (f : Device → Device) (d : Device) : Prop :=
  ∃ assigned disposition s, ∀ h : Hev, f (d.withStamps h d.sth) =
    d.withStamps { h with store := h.store.set i (some { r with assigned := assigned, disposition := disposition }) } s

theorem Device.askAdmission_writesDecided (t : Terms) (i : Nat) (r : HideRecord) (a : Anchor) (n : Fin 4) (d : Device) :
    d.WritesDecided i r (Device.askAdmission t i r a n) := by
  let fire := a.pos + BitVec.ofNat 48 (d.headEntry n).offset
  cases admission : admissionRefusal d.bpu.position (d.headEntry n) (d.head n) fire with
  | some answer =>
    exact ⟨some (n, fire), answer, d.sth, fun h => Device.askAdmission_of_refused (d := d.withStamps h d.sth) i admission⟩
  | none =>
    refine ⟨some (n, fire), r.disposition, (d.admitEntry n (stampEntry t i r fire)).sth, fun h => ?_⟩
    rw [Device.withStamps_admitEntry]
    exact Device.askAdmission_of_admitted (d := d.withStamps h d.sth) i admission

theorem Device.stampDecision_writesDecided (t : Terms) (i : Nat) (r : HideRecord) (d : Device) :
    d.WritesDecided i r (Device.stampDecision t i r) := by
  by_cases policy : r.flags.suspect = true ∧ t.suspect = .skip
  · exact ⟨_, _, _, fun h => Device.stampDecision_of_policy i _ policy.1 policy.2⟩
  have stamps : t.stamps r := by
    rw [Terms.stamps, ← Bool.not_eq_true]
    tauto
  obtain noAnchor | ⟨a, anchor⟩ := Option.eq_none_or_eq_some r.anchor
  · exact ⟨_, _, _, fun h => Device.stampDecision_of_noAnchor i _ stamps noAnchor⟩
  · cases head : d.assignHead a.cell with
    | error answer => exact ⟨_, _, _, fun h => Device.stampDecision_of_error i (d.withStamps h d.sth) stamps anchor head⟩
    | ok n =>
      obtain ⟨assigned, disposition, s, written⟩ := d.askAdmission_writesDecided t i r a n
      exact ⟨assigned, disposition, s, fun h =>
        (Device.stampDecision_of_ok i (d.withStamps h d.sth) stamps anchor head).trans (written h)⟩

/-! ### The pack feed (R88) -/

section
variable (h : Hev) (s : Sth) (d : Device)

theorem Device.withStamps_offerReplyPlace : d.offerReplyPlace.withStamps h s = (d.withStamps h s).offerReplyPlace := by
  unfold Device.offerReplyPlace
  rw [show (d.withStamps h s).dec.owed = d.dec.owed from rfl]
  split <;> rfl

theorem Device.withStamps_sendReplyPart (e : ReplyEntry) (rest : List ReplyEntry) :
    (d.sendReplyPart e rest).withStamps h s = (d.withStamps h s).sendReplyPart e rest := by
  unfold Device.sendReplyPart
  dsimp only
  split
  · exact Device.withStamps_offerReplyPlace h s _
  · rfl

theorem Device.withStamps_wakeTx : d.wakeTx.withStamps h s = (d.withStamps h s).wakeTx := by
  unfold Device.wakeTx Device.sendNext
  rw [show (d.withStamps h s).lnk = d.lnk from rfl]
  repeat' split
  · exact Device.withStamps_sendReplyPart h s d _ _
  all_goals rfl

theorem Device.withStamps_placeReport (f : Frame) : (d.placeReport f).withStamps h s = (d.withStamps h s).placeReport f := by
  unfold Device.placeReport
  rw [show (d.withStamps h s).reportRoom = d.reportRoom from rfl]
  split
  · exact Device.withStamps_wakeTx h s _
  · rfl

theorem Device.withStamps_askPackPlace (n : Fin 4) : (d.askPackPlace n).withStamps h s = (d.withStamps h s).askPackPlace n := by
  unfold Device.askPackPlace
  rw [show (d.withStamps h s).reportRoom = d.reportRoom from rfl, show (d.withStamps h s).slot n = d.slot n from rfl]
  repeat' split
  · exact Device.withStamps_placeReport h s _ _
  all_goals rfl

theorem Device.withStamps_closePack (n : Fin 4) (flags : CloseFlags) :
    (d.closePack n flags).withStamps h s = (d.withStamps h s).closePack n flags := by
  unfold Device.closePack
  rw [show (d.withStamps h s).slot n = d.slot n from rfl]
  split
  · exact Device.withStamps_askPackPlace h s _ n
  · rfl

theorem Device.withStamps_closeAtTarget (n : Fin 4) :
    (d.closeAtTarget n).withStamps h s = (d.withStamps h s).closeAtTarget n := by
  unfold Device.closeAtTarget
  rw [show (d.withStamps h s).slot n = d.slot n from rfl]
  repeat' split
  · rfl
  · exact Device.withStamps_closePack h s d n _
  · rfl

/-- A feed changes the packs and the link by themselves: the evaluator and the heads have no part in it. -/
theorem Device.withStamps_feedPack (n : Fin 4) (f : PackFeed) :
    (d.feedPack n f).withStamps h s = (d.withStamps h s).feedPack n f := by
  unfold Device.feedPack
  rw [show (d.withStamps h s).slot n = d.slot n from rfl]
  split <;> exact Device.withStamps_closeAtTarget h s _ n

theorem Device.withStamps_feedHide (t : Terms) (r : HideRecord) :
    (d.feedHide t r).withStamps h s = (d.withStamps h s).feedHide t r := by
  unfold Device.feedHide
  repeat' split
  · rfl
  · exact Device.withStamps_feedPack h s d _ _
  all_goals rfl

end

theorem Device.feedHide_of_pack {t : Terms} {r : HideRecord} {k : Nat} {c : TermClass} {n : Fin 4} (d : Device)
    (index : r.classIndex = some k) (row : t.classes[k]? = some c) (pack : c.pack = some n) (clear : r.flags.suspect = false) :
    d.feedHide t r = d.feedPack n ⟨r.steps, r.counted, r.unit, r.resolution, r.generation, c.target⟩ := by
  simp [Device.feedHide, index, row, pack, clear]

/-- A SUSPECT hide, and one whose class names no pack slot, is fed to none. -/
theorem Device.feedHide_of_noPack {t : Terms} {r : HideRecord} (d : Device)
    (noPack : r.flags.suspect = true ∨ ∀ k c, r.classIndex = some k → t.classes[k]? = some c → c.pack = none) :
    d.feedHide t r = d := by
  unfold Device.feedHide
  split
  case h_2 => rfl
  case h_1 c found =>
    obtain ⟨k, index, row⟩ := Option.bind_eq_some_iff.1 found
    rcases noPack with suspect | noSlot
    · cases c.pack <;> simp [suspect]
    · simp [noSlot k c index row]

/-! ### An offer taken (R77 to R90) -/

/-- Where the stamp decision leaves an evaluator and heads, the record fed to its pack then asks for a report place beside them. -/
theorem Device.takeOffer_eq {t : Terms} {i : Nat} {o : Region} {d : Device} {hev : Hev} {s : Sth}
    (decided : Device.stampDecision t i (d.makeRecord t o) { d with hev := { d.hev with nextHide := d.hev.nextHide + 1 } }
      = d.withStamps hev s) :
    d.takeOffer t i o = ((d.feedHide t (d.makeRecord t o)).withStamps hev s).askHidePlace i := by
  rw [Device.withStamps_feedHide, ← decided]
  rfl

/-- Settles O21: the answer by the area and the lowest empty slot; of an offer taken, the record and the heads by the stamp decision, the
packs and the link by the feed. -/
theorem evaluationScrapsRefusesOrTakes : Obligations.EvaluationScrapsRefusesOrTakes := by
  intro d t o terms
  refine ⟨Device.evaluate_of_small terms, Device.evaluate_of_full terms, fun i large empty lower => ?_⟩
  have answered := Device.evaluate_of_slot terms large (Hev.emptySlot_of_lowest empty lower)
  obtain ⟨assigned, disposition, s, decided⟩ := d.stampDecision_writesDecided t i (d.makeRecord t o)
  have took := Device.takeOffer_eq (decided { d.hev with nextHide := d.hev.nextHide + 1 })
  refine ⟨_, { d.makeRecord t o with assigned := assigned, disposition := disposition }, answered.trans (congrArg _ took),
    ((d.feedHide_touches t _).comp (Device.withStamps_touches _ s _)).weaken rfl, rfl, rfl, ?stamped,
    fun k c n index row pack clear => ?fed, fun noPack => ?notFed⟩
  case stamped =>
    have stamped : d.stampDecision t i (d.makeRecord t o) = _ := decided d.hev
    rw [stamped]
    exact ⟨rfl, rfl⟩
  case fed =>
    rw [d.feedHide_of_pack (r := d.makeRecord t o) index row pack clear]
    exact ⟨rfl, rfl⟩
  case notFed =>
    rw [d.feedHide_of_noPack (r := d.makeRecord t o) noPack]
    exact ⟨rfl, rfl⟩

end Sys2Proof.Machine
end

section
/-!
SUPPORT. Layouts that spell numbers one behind another, each in its own width (R193): where a part stands in a longer layout, what a
stretch of numbers shows there, and the bits of a set.
-/

namespace Sys2Proof.Machine

/-! ### Numbers spelled one behind another -/

/-- The bytes of numbers one behind another, each given by its width and its value. -/
def spell (numbers : List (Nat × Nat)) : List Byte := numbers.flatMap fun f => bytesOf f.1 f.2

/-- The fields that numbers become when the first of them stands at an offset, in the form that Shows takes. -/
def placed : Nat → List (Nat × Nat) → List (Nat × Nat × Nat)
  | _, [] => []
  | o, f :: rest => (o, f.1, f.2) :: placed (o + f.1) rest

/-- A part of a layout, whole and at an offset. -/
def StandsAt (o : Nat) (part bytes : List Byte) : Prop := ∃ front back, bytes = front ++ (part ++ back) ∧ front.length = o

theorem spell_cons (f : Nat × Nat) (rest : List (Nat × Nat)) : spell (f :: rest) = bytesOf f.1 f.2 ++ spell rest :=
  List.flatMap_cons

theorem spell_length (numbers : List (Nat × Nat)) : (spell numbers).length = (numbers.map Prod.fst).sum := by
  simp [spell, List.length_flatMap]

theorem bytesOf_one (v : Nat) : bytesOf 1 v = [BitVec.ofNat 8 v] := by simp [bytesOf]

theorem indication_eq_ofNat (b : Bool) : indication b = BitVec.ofNat 8 (if b then 1 else 0) := by cases b <;> rfl

theorem Shows.mono {bytes : List Byte} {shown asked : List (Nat × Nat × Nat)} (h : Shows bytes shown) (sub : asked ⊆ shown) :
    Shows bytes asked := fun f hf => h f (sub hf)

theorem Shows.append {bytes : List Byte} {fs gs : List (Nat × Nat × Nat)} (h : Shows bytes fs) (k : Shows bytes gs) :
    Shows bytes (fs ++ gs) := List.forall_mem_append.2 ⟨h, k⟩

/-- A 32-bit number fills a field of 4 bytes: it is read whole. -/
theorem Shows.word32 {bytes : List Byte} {fields : List (Nat × Nat × Nat)} (h : Shows bytes fields) {o : Nat} {w : Word32}
    (field : (o, 4, w.toNat) ∈ fields) : fieldAt o 4 bytes = w.toNat :=
  (h _ field).trans (Nat.mod_eq_of_lt w.isLt)

theorem StandsAt.whole (bytes : List Byte) : StandsAt 0 bytes bytes := ⟨[], [], by simp, rfl⟩

theorem StandsAt.front (part back : List Byte) : StandsAt 0 part (part ++ back) := ⟨[], back, rfl, rfl⟩

theorem StandsAt.behind {o : Nat} (front part back : List Byte) (offset : front.length = o) :
    StandsAt o part (front ++ (part ++ back)) := ⟨front, back, rfl, offset⟩

theorem StandsAt.back {o : Nat} (front part : List Byte) (offset : front.length = o) : StandsAt o part (front ++ part) :=
  ⟨front, [], by simp, offset⟩

/-- A part of a part stands at the sum of the two offsets. -/
theorem StandsAt.within {o p q : Nat} {inner part bytes : List Byte} (h : StandsAt o part bytes) (k : StandsAt p inner part)
    (offset : o + p = q) : StandsAt q inner bytes := by
  obtain ⟨front, back, rfl, rfl⟩ := h
  obtain ⟨front', back', rfl, rfl⟩ := k
  exact ⟨front ++ front', back' ++ back, by simp, by simpa using offset⟩

/-- A number in a layout is the field that is read there, modulo its range. -/
theorem StandsAt.field_eq {o n v : Nat} {bytes : List Byte} (h : StandsAt o (bytesOf n v) bytes) :
    fieldAt o n bytes = v % 256 ^ n := by
  obtain ⟨front, back, rfl, rfl⟩ := h
  simpa [natOf_bytesOf] using fieldAt_append front (bytesOf n v) back

/-- Numbers spelled in a layout are shown each behind those before it. -/
theorem StandsAt.shows {numbers : List (Nat × Nat)} {o : Nat} {part bytes : List Byte} (h : StandsAt o part bytes)
    (spelled : part = spell numbers) : Shows bytes (placed o numbers) := by
  subst spelled
  induction numbers generalizing o with
  | nil => exact fun _ hf => nomatch hf
  | cons f rest ih =>
    rw [spell_cons] at h
    exact List.forall_mem_cons.2
      ⟨(h.within (.front _ _) rfl).field_eq, ih (h.within (.back _ _ (bytesOf_length _ _)) rfl)⟩

/-- A list of parts one behind another: each stands behind the lengths of those before it. -/
theorem standsAt_flatten {parts : List (List Byte)} {part : List Byte} {o : Nat} (i : Nat) (h : parts[i]? = some part)
    (offset : ((parts.take i).map List.length).sum = o) : StandsAt o part parts.flatten := by
  obtain ⟨hi, rfl⟩ := List.getElem?_eq_some_iff.1 h
  refine ⟨(parts.take i).flatten, (parts.drop (i + 1)).flatten, ?_, by rw [List.length_flatten, offset]⟩
  rw [← List.flatten_cons, List.getElem_cons_drop, ← List.flatten_append, List.take_append_drop]

/-- Parts of one width, one for each entry of a list: that of entry i stands behind i of them. -/
theorem standsAt_flatMap {α : Type} {f : α → List Byte} {w : Nat} (width : ∀ x, (f x).length = w) {l : List α} {x : α} {i : Nat}
    (h : l[i]? = some x) : StandsAt (w * i) (f x) (l.flatMap f) := by
  have inside : i < l.length := (List.getElem?_eq_some_iff.1 h).1
  rw [List.flatMap_def]
  refine standsAt_flatten i (by simp [h]) ?_
  simp [← List.map_take, Function.comp_def, width, Nat.min_eq_left inside.le, Nat.mul_comm]

/-! ### Sets of bits -/

theorem testBit_bitsOf (l : List Bool) (i : Nat) : (bitsOf l).testBit i = (l[i]? == some true) := by
  induction l generalizing i with
  | nil => simp [bitsOf]
  | cons b l ih =>
    cases i with
    | zero => cases b <;> simp [bitsOf, Nat.testBit_zero]
    | succ i =>
      have half : bitsOf (b :: l) / 2 = bitsOf l := by
        simp only [bitsOf]
        split <;> omega
      rw [Nat.testBit_succ, half, ih, List.getElem?_cons_succ]

/-- The bits of a set that is shown in 4 bytes. -/
theorem StandsAt.testBit_field {o : Nat} {l : List Bool} {bytes : List Byte} (h : StandsAt o (bytesOf 4 (bitsOf l)) bytes) {i : Nat}
    (inside : i < 32) : (fieldAt o 4 bytes).testBit i = (l[i]? == some true) := by
  rw [h.field_eq, show 256 ^ 4 = 2 ^ 32 from rfl, Nat.testBit_mod_two_pow, testBit_bitsOf]
  simp [inside]

end Sys2Proof.Machine
end

section
/-!
PROOF. What QUERY and the READs that are performed on arrival show (R110, R114, R191, R210, R219, R224): each group of the status block
is written once as the numbers it spells, and each READ by its tests.
-/

namespace Sys2Proof.Machine

/-! ### The places of the groups (R210) -/

theorem Device.statusBlock_eq_flatten (d : Device) :
    d.statusBlock =
      [d.bpuGroup, d.lcnGroup, d.rtkGroup, d.hevGroup, d.sthGroup, d.pkuGroup, d.lctGroup, d.ccuGroup, d.lnkGroup].flatten := by
  simp [Device.statusBlock]

/-- The nine groups of the status block, each behind those before it. -/
structure Device.GroupsStand (d : Device) : Prop where
  bpu : StandsAt 0 d.bpuGroup d.statusBlock
  lcn : StandsAt 46 d.lcnGroup d.statusBlock
  rtk : StandsAt 63 d.rtkGroup d.statusBlock
  hev : StandsAt 79 d.hevGroup d.statusBlock
  sth : StandsAt 95 d.sthGroup d.statusBlock
  pku : StandsAt 148 d.pkuGroup d.statusBlock
  lct : StandsAt 216 d.lctGroup d.statusBlock
  ccu : StandsAt 252 d.ccuGroup d.statusBlock
  lnk : StandsAt 278 d.lnkGroup d.statusBlock

theorem Device.groupsStand {d : Device} (segments : d.ccu.segments.length = 16) : d.GroupsStand := by
  obtain ⟨bpu, lcn, rtk, hev, sth, pku, lct, ccu, -, -⟩ := d.statusBlock_lengths segments
  constructor <;> rw [d.statusBlock_eq_flatten]
  · exact standsAt_flatten 0 rfl rfl
  · exact standsAt_flatten 1 rfl (by simp [*])
  · exact standsAt_flatten 2 rfl (by simp [*])
  · exact standsAt_flatten 3 rfl (by simp [*])
  · exact standsAt_flatten 4 rfl (by simp [*])
  · exact standsAt_flatten 5 rfl (by simp [*])
  · exact standsAt_flatten 6 rfl (by simp [*])
  · exact standsAt_flatten 7 rfl (by simp [*])
  · exact standsAt_flatten 8 rfl (by simp [*])

/-! ### The numbers of the groups (R17, R38, R68, R93, R139, R152, R175, R190, R204) -/

/-- The numbers of the BPU group (R17). -/
def Device.bpuFields (d : Device) : List (Nat × Nat) :=
  let b := d.bpu
  [(6, b.position.toNat), (6, b.mark.toNat), (1, if b.direction = .forward then 0 else 1),
    (1, if d.lct.control.freeRun then 1 else 0), (2, b.divider), (4, b.nextLine.toNat), (1, b.outstanding.length),
    (4, b.outstanding[0]?.elim (Config.absentValue (.outstandingLine 0)) fun o => o.line.toNat),
    (6, b.outstanding[0]?.elim 0 fun o => o.pos.toNat),
    (4, b.outstanding[1]?.elim (Config.absentValue (.outstandingLine 1)) fun o => o.line.toNat),
    (6, b.outstanding[1]?.elim 0 fun o => o.pos.toNat),
    (1, b.pauseTimer.elim 255 fun t => Timer.msLeft (some t)), (4, b.uptime.toNat)]

theorem outstandingBytes_eq_spell (k : Nat) (o : Option Outstanding) :
    outstandingBytes k o =
      spell [(4, o.elim (Config.absentValue (.outstandingLine k)) fun o => o.line.toNat), (6, o.elim 0 fun o => o.pos.toNat)] := by
  cases o <;> simp [outstandingBytes, absentBytes, spell]

theorem Device.bpuGroup_eq_spell (d : Device) : d.bpuGroup = spell d.bpuFields := by
  have direction : d.bpu.direction.code = BitVec.ofNat 8 (if d.bpu.direction = .forward then 0 else 1) := by
    cases d.bpu.direction <;> rfl
  cases h : d.bpu.pauseTimer <;>
    simp [Device.bpuGroup, Device.bpuFields, outstandingBytes_eq_spell, spell, bytesOf_one, direction, indication_eq_ofNat, h]

/-- The numbers of the LCN group (R38). -/
def Device.lcnFields (d : Device) : List (Nat × Nat) :=
  let c := d.lcn
  [(4, c.expected.toNat), (1, c.trailing), (4, c.overflow), (1, c.queue.length), (1, (barStatusByte c.lastStatus).toNat),
    (2, c.missed), (2, c.stray), (2, c.malformed)]

theorem Device.lcnGroup_eq_spell (d : Device) : d.lcnGroup = spell d.lcnFields := by
  simp [Device.lcnGroup, Device.lcnFields, spell, bytesOf_one]

theorem Rtk.count_openLeather (k : Rtk) :
    k.count Region.openLeather = (k.table.filter fun r => r.kind == .leather && r.state == .opened).length := rfl

theorem Rtk.count_openGap (k : Rtk) :
    k.count Region.openGap = (k.table.filter fun r => r.kind == .gap && r.state == .opened).length := rfl

theorem Rtk.count_waits (k : Rtk) : k.count Region.waits = (k.table.filter fun r => r.state == .closedWait).length := rfl

/-- The numbers of the RTK group (R68). -/
def Device.rtkFields (d : Device) : List (Nat × Nat) :=
  let k := d.rtk
  [(1, k.stack.length), (1, k.count Region.openLeather), (1, k.count Region.openGap), (1, k.count Region.waits),
    (4, k.exhaustion.toNat), (2, k.linesProcessed), (1, if k.prevLine.isSome then 1 else 0),
    (4, k.prevLine.elim (Config.absentValue .previousLine) fun o => o.line.toNat), (1, if k.work.isSome then 1 else 0)]

theorem Device.rtkGroup_eq_spell (d : Device) : d.rtkGroup = spell d.rtkFields := by
  cases h : d.rtk.prevLine <;>
    simp [Device.rtkGroup, Device.rtkFields, spell, bytesOf_one, indication_eq_ofNat, absentBytes, h]

/-- The records of the store that meet a test. -/
def Hev.records (h : Hev) (p : HideRecord → Bool) : Nat := (h.store.filter fun x => x.any p).length

theorem Hev.held_eq_records (h : Hev) : h.held = h.records fun _ => true := rfl

theorem Hev.recordsIn_eq_records (h : Hev) (pending : Bool) :
    h.recordsIn pending = h.records fun r => (r.disposition == .pending) == pending :=
  congrArg List.length (List.filter_congr fun x _ => by cases x <;> rfl)

/-- The numbers of the HEV group (R93). -/
def Device.hevFields (d : Device) : List (Nat × Nat) :=
  let h := d.hev
  [(1, if h.terms.isSome then 1 else 0), (4, h.generation.toNat), (4, h.nextHide.toNat), (1, h.records fun _ => true),
    (1, h.records fun r => r.disposition == .pending), (1, h.records fun r => r.disposition != .pending), (2, h.scraps),
    (2, h.discarded)]

theorem Device.hevGroup_eq_spell (d : Device) : d.hevGroup = spell d.hevFields := by
  simp [Device.hevGroup, Device.hevFields, spell, bytesOf_one, indication_eq_ofNat, Hev.held_eq_records,
    Hev.recordsIn_eq_records, bne]

/-- The numbers of one head in the STH group (R139). -/
def Device.headFields (n : Fin 4) (d : Device) : List (Nat × Nat) :=
  let h := d.head n
  [(1, h.state.code.toNat), (1, bitsOf [h.disablePending, h.retryUsed, h.strikeHigh, !h.queue.isEmpty]), (1, h.queue.length),
    (4, h.queue.head?.elim (Config.absentValue (.frontHide n.val)) fun e => e.hide.toNat),
    (6, h.queue.head?.elim 0 fun e => e.fire.toNat)]

theorem Device.headGroup_eq_spell (n : Fin 4) (d : Device) : d.headGroup n = spell (d.headFields n) := by
  cases h : (d.head n).queue <;> simp [Device.headGroup, Device.headFields, spell, bytesOf_one, absentBytes, h]

/-- The numbers of one slot in the PKU group (R152). -/
def Device.slotFields (n : Fin 4) (d : Device) : List (Nat × Nat) :=
  let p := d.slot n
  [(1, if p.acc.isSome then 1 else 0),
    (4, p.acc.elim (Config.absentValue (.openNumber n.val)) fun a => a.number.toNat),
    (2, p.acc.elim (Config.absentValue (.openCount n.val)) fun a => a.hides),
    (1, p.acc.elim (Config.absentValue (.openTarget n.val)) fun a => a.target),
    (1, if p.buf.isSome then 1 else 0),
    (4, p.buf.elim (Config.absentValue (.heldNumber n.val)) fun c => c.pack.number.toNat),
    (2, p.buf.elim (Config.absentValue (.heldCount n.val)) fun c => c.pack.hides),
    (1, p.buf.elim (Config.absentValue (.heldFlags n.val)) fun c =>
      bitsOf [c.flags.short, c.flags.overfull, c.flags.policyChange, c.pack.overrange])]

theorem Device.slotGroup_eq_spell (n : Fin 4) (d : Device) :
    openPackBytes n (d.slot n).acc ++ heldPackBytes n (d.slot n).buf = spell (d.slotFields n) := by
  cases acc : (d.slot n).acc <;> cases buf : (d.slot n).buf <;>
    simp [openPackBytes, heldPackBytes, ClosedPack.flagByte, Device.slotFields, spell, bytesOf_one, absentBytes, acc, buf]

/-- The numbers of one input in the LCT group (R175). -/
def Device.inputFields (n : Fin 8) (d : Device) : List (Nat × Nat) :=
  let i := d.lct.input n
  [(1, bitsOf [i.raw, i.debounced, d.lct.inputActive n, i.timer.isSome]),
    (1, i.timer.elim (Config.absentValue (.debounceMs n.val)) fun t => min (Timer.msLeft (some t)) 255)]

theorem Device.inputGroup_eq_spell (n : Fin 8) (d : Device) : d.inputGroup n = spell (d.inputFields n) := by
  cases h : (d.lct.input n).timer <;> simp [Device.inputGroup, Device.inputFields, spell, bytesOf_one, absentBytes, h]

/-- The numbers of the LCT group before its inputs (R175). -/
def Device.lctFields (d : Device) : List (Nat × Nat) :=
  let l := d.lct
  [(1, l.lineState.code.toNat), (1, l.haltCause.code.toNat), (4, l.control.word), (1, bitsOf [l.beltRun, l.estop])]

theorem Device.lctGroup_eq (d : Device) :
    d.lctGroup =
      spell d.lctFields ++ (inputNumbers.flatMap d.inputGroup ++
        (bytesOf 4 (d.lct.latchSet .pending) ++ (bytesOf 4 (d.lct.latchSet .held) ++
          (bytesOf 4 d.lct.maskWord ++ spell [(1, if d.lct.wants then 1 else 0)])))) := by
  simp [Device.lctGroup, Device.lctFields, spell, bytesOf_one, indication_eq_ofNat]

/-- The numbers of the CCU group before the segments (R190). -/
def Device.ccuFields (d : Device) : List (Nat × Nat) :=
  let c := d.ccu
  [(1, if c.valid then 1 else 0), (4, c.audit), (1, if c.committing then 1 else 0),
    (2, c.commitTimer.elim (Config.absentValue .commitMs) fun t => Timer.msLeft (some t)), (1, c.lastResult.code.toNat)]

theorem Device.ccuGroup_eq (d : Device) :
    d.ccuGroup =
      spell d.ccuFields ++ (d.ccu.segments.flatMap (fun x => [x.code]) ++
        spell [(1, bitsOf [d.ccu.lock.lockNext, d.ccu.lock.locked, d.ccu.promotionPending, d.ccu.strapFitted])]) := by
  cases h : d.ccu.commitTimer <;>
    simp [Device.ccuGroup, Device.ccuFields, spell, bytesOf_one, indication_eq_ofNat, absentBytes, List.map_eq_flatMap, h]

/-- The numbers of the LNK group (R204). -/
def Device.lnkFields (d : Device) : List (Nat × Nat) :=
  let l := d.lnk
  [(2, l.badFrames), (2, l.forwardDrops), (2, l.upstreamDrops), (2, l.incompleteLoads), (1, l.upFifo.length),
    (1, l.replyFifo.length + d.dec.reservations), (1, l.reportFifo.length), (1, l.forwardFifo.length),
    (1, l.assembly.elim 0 fun a => a.next + 1), (1, if l.downTx.isSome then 1 else 0)]

theorem Device.lnkGroup_eq_spell (d : Device) : d.lnkGroup = spell d.lnkFields := by
  cases h : d.lnk.assembly <;> simp [Device.lnkGroup, Device.lnkFields, spell, bytesOf_one, indication_eq_ofNat, h]

/-! ### Heads, slots, inputs, latches and segments in their places -/

section
variable {d : Device} (groups : d.GroupsStand)
include groups

theorem Device.GroupsStand.head (n : Fin 4) : Shows d.statusBlock (placed (96 + 13 * n.val) (d.headFields n)) := by
  have number : headNumbers[n.val]? = some n := by decide +revert
  have width : ∀ m, (d.headGroup m).length = 13 := fun m => by
    simp [Device.headGroup_eq_spell, spell_length, Device.headFields]
  have heads : StandsAt 96 (headNumbers.flatMap d.headGroup) d.statusBlock :=
    groups.sth.within (.back [indication d.sth.table.isSome] _ rfl) rfl
  exact (heads.within (standsAt_flatMap width number) rfl).shows (d.headGroup_eq_spell n)

theorem Device.GroupsStand.slot (n : Fin 4) : Shows d.statusBlock (placed (152 + 16 * n.val) (d.slotFields n)) := by
  have number : headNumbers[n.val]? = some n := by decide +revert
  have width : ∀ m, (openPackBytes m (d.slot m).acc ++ heldPackBytes m (d.slot m).buf).length = 16 := fun m => by
    rw [Device.slotGroup_eq_spell, spell_length]
    rfl
  have slots := groups.pku.within (.back (bytesOf 4 d.pku.nextPack.toNat) _ (bytesOf_length _ _)) rfl
  exact (slots.within (standsAt_flatMap width number) rfl).shows (d.slotGroup_eq_spell n)

theorem Device.GroupsStand.input (n : Fin 8) : Shows d.statusBlock (placed (223 + 2 * n.val) (d.inputFields n)) := by
  have number : inputNumbers[n.val]? = some n := by decide +revert
  have width : ∀ m, (d.inputGroup m).length = 2 := fun m => by
    simp [Device.inputGroup_eq_spell, spell_length, Device.inputFields]
  have inputs := (d.lctGroup_eq ▸ groups.lct).within (.behind _ _ _ (spell_length _)) rfl
  exact (inputs.within (standsAt_flatMap width number) rfl).shows (d.inputGroup_eq_spell n)

theorem Device.GroupsStand.lctFront : Shows d.statusBlock (placed 216 d.lctFields) :=
  ((d.lctGroup_eq ▸ groups.lct).within (.front _ _) rfl).shows rfl

/-- The latch sets, the mask and the wish for a report place, behind the inputs. -/
theorem Device.GroupsStand.latches :
    StandsAt 239 (bytesOf 4 (d.lct.latchSet .pending)) d.statusBlock ∧
      StandsAt 243 (bytesOf 4 (d.lct.latchSet .held)) d.statusBlock ∧ StandsAt 247 (bytesOf 4 d.lct.maskWord) d.statusBlock ∧
      Shows d.statusBlock (placed 251 [(1, if d.lct.wants then 1 else 0)]) := by
  have inputs : (inputNumbers.flatMap d.inputGroup).length = 16 := by
    simp [inputNumbers, Device.inputGroup_eq_spell, spell_length, Device.inputFields]
  have behindFront := (d.lctGroup_eq ▸ groups.lct).within (.back _ _ (spell_length _)) rfl
  have pending := behindFront.within (.back _ _ inputs) rfl
  have held := pending.within (.back _ _ (bytesOf_length _ _)) rfl
  have mask := held.within (.back _ _ (bytesOf_length _ _)) rfl
  have wants := mask.within (.back _ _ (bytesOf_length _ _)) rfl
  exact ⟨pending.within (.front _ _) rfl, held.within (.front _ _) rfl, mask.within (.front _ _) rfl, wants.shows rfl⟩

theorem Device.GroupsStand.ccuFront : Shows d.statusBlock (placed 252 d.ccuFields) :=
  ((d.ccuGroup_eq ▸ groups.ccu).within (.front _ _) rfl).shows rfl

theorem Device.GroupsStand.segment (segments : d.ccu.segments.length = 16) {i : Nat} (inside : i < 16) :
    Shows d.statusBlock (placed (261 + i) [(1, (d.ccu.segments.getD i .unset).code.toNat)]) := by
  have entry : d.ccu.segments[i]? = some (d.ccu.segments.getD i .unset) := by simp [segments, inside]
  have list := (d.ccuGroup_eq ▸ groups.ccu).within (.behind _ _ _ (spell_length _)) rfl
  have byte := list.within (standsAt_flatMap (w := 1) (fun _ => rfl) entry) rfl
  rw [Nat.one_mul] at byte
  exact byte.shows (by simp [spell, bytesOf_one])

theorem Device.GroupsStand.lockFlags (segments : d.ccu.segments.length = 16) :
    Shows d.statusBlock
      (placed 277 [(1, bitsOf [d.ccu.lock.lockNext, d.ccu.lock.locked, d.ccu.promotionPending, d.ccu.strapFitted])]) := by
  have list : (d.ccu.segments.flatMap fun x => [x.code]).length = 16 := by simp [← List.map_eq_flatMap, segments]
  have behindFront := (d.ccuGroup_eq ▸ groups.ccu).within (.back _ _ (spell_length _)) rfl
  exact (behindFront.within (.back _ _ list) rfl).shows rfl

end

/-- The whole status block by the numbers that a device spells there (R210). -/
structure Device.ShownIn (bytes : List Byte) (d : Device) : Prop where
  bpu : Shows bytes (placed 0 d.bpuFields)
  lcn : Shows bytes (placed 46 d.lcnFields)
  rtk : Shows bytes (placed 63 d.rtkFields)
  hev : Shows bytes (placed 79 d.hevFields)
  heads : Shows bytes (placed 95 [(1, if d.sth.table.isSome then 1 else 0)])
  head : ∀ n : Fin 4, Shows bytes (placed (96 + 13 * n.val) (d.headFields n))
  nextPack : Shows bytes (placed 148 [(4, d.pku.nextPack.toNat)])
  slot : ∀ n : Fin 4, Shows bytes (placed (152 + 16 * n.val) (d.slotFields n))
  lct : Shows bytes (placed 216 d.lctFields)
  input : ∀ n : Fin 8, Shows bytes (placed (223 + 2 * n.val) (d.inputFields n))
  pending : StandsAt 239 (bytesOf 4 (d.lct.latchSet .pending)) bytes
  held : StandsAt 243 (bytesOf 4 (d.lct.latchSet .held)) bytes
  mask : StandsAt 247 (bytesOf 4 d.lct.maskWord) bytes
  wants : Shows bytes (placed 251 [(1, if d.lct.wants then 1 else 0)])
  ccu : Shows bytes (placed 252 d.ccuFields)
  segment : ∀ i < 16, Shows bytes (placed (261 + i) [(1, (d.ccu.segments.getD i .unset).code.toNat)])
  lock : Shows bytes
    (placed 277 [(1, bitsOf [d.ccu.lock.lockNext, d.ccu.lock.locked, d.ccu.promotionPending, d.ccu.strapFitted])])
  lnk : Shows bytes (placed 278 d.lnkFields)

theorem Device.shownIn_statusBlock {d : Device} (segments : d.ccu.segments.length = 16) : d.ShownIn d.statusBlock := by
  have groups := Device.groupsStand segments
  obtain ⟨pending, held, mask, wants⟩ := groups.latches
  exact {
    bpu := groups.bpu.shows d.bpuGroup_eq_spell
    lcn := groups.lcn.shows d.lcnGroup_eq_spell
    rtk := groups.rtk.shows d.rtkGroup_eq_spell
    hev := groups.hev.shows d.hevGroup_eq_spell
    heads := (groups.sth.within (.front _ _) rfl).shows (by simp [spell, bytesOf_one, indication_eq_ofNat])
    head := groups.head
    nextPack := (groups.pku.within (.front _ _) rfl).shows (by simp [spell])
    slot := groups.slot
    lct := groups.lctFront
    input := groups.input
    pending
    held
    mask
    wants
    ccu := groups.ccuFront
    segment := fun _ inside => groups.segment segments inside
    lock := groups.lockFlags segments
    lnk := groups.lnk.shows d.lnkGroup_eq_spell }

/-- A latch stands in a state when its bit is set in the set of that state (R206). -/
theorem latchSet_getElem? (latches : List LatchState) (x : LatchState) (i : Nat) :
    ((latches.map (· == x))[i]? == some true) = (latches[i]? == some x) := by
  rw [List.getElem?_map]
  cases latches[i]? with
  | none => rfl
  | some y => cases y <;> cases x <;> rfl

/-- The milliseconds shown are the count or one less (log 8). -/
theorem Countdown.msLeft_near (t : Countdown) : Timer.msLeft (some t) = t.most ∨ Timer.msLeft (some t) + 1 = t.most := by
  simp only [Timer.msLeft]
  split
  case isTrue less =>
    have positive : 0 < t.most := of_decide_eq_true (Bool.and_eq_true_iff.1 less).1
    omega
  case isFalse => exact .inl rfl

/-! ### The READs performed on arrival (R219) -/

/-- A row that is a READ performed on arrival answers what it reads, on a device that only its receiver has changed. -/
theorem exec_of_read {c : Instr} {read : Device → Reply} {r : Reply} {s : State} (ready : s.dev.ReadyFor)
    (row : exec c s = s.request kindRead (Device.requestRead read)) (answer : read s.dev.heard = r) :
    exec c s = .next ⟨s.dev.heard.replied kindRead r, s.pending⟩ := by
  rw [row, State.request_next ready, ← answer]
  rfl

theorem CalTable.exec_readRow (t : CalTable) (segment : Byte) (s : State) :
    exec (t.readRow segment) s = s.request kindRead (Device.requestRead (Device.readCal t segment)) := by
  cases t <;> rfl

theorem Device.readCal_of_out {t : CalTable} {segment : Byte} (d : Device) (out : t.segments ≤ segment.toNat) :
    d.readCal t segment = badSegment := if_pos out

theorem Device.readCal_of_in {t : CalTable} {segment : Byte} (d : Device) (inside : segment.toNat < t.segments) :
    d.readCal t segment =
      .ok ([t.code, segment] ++ ([indication d.ccu.valid] ++ bytesOf 4 d.ccu.audit ++
        [(d.ccu.segments.getD (t.segmentIndex segment.toNat) .unset).code] ++
        (if t = .conditioning then blankMap (segmentWords t segment.toNat d.ccu.active) else []) ++
        (segmentWords t segment.toNat d.ccu.active).flatMap wordBytes)) := if_neg (Nat.not_le.2 inside)

theorem Device.readTerms_of_absent {d : Device} (absent : d.hev.terms = none) : d.readTerms 0 = .ok [3, 0, 0, 0, 0, 0, 0] := by
  simp only [Device.readTerms, absent]
  rfl

theorem Device.readTerms_of_present {d : Device} {t : Terms} (present : d.hev.terms = some t) :
    d.readTerms 0 = .ok ([3, 0, 1] ++ bytesOf 4 d.hev.generation.toNat ++ t.bytes) := by
  simp only [Device.readTerms, present]
  rfl

theorem Device.readHeads_of_absent {d : Device} (absent : d.sth.table = none) : d.readHeads 0 = .ok [4, 0, 0] := by
  simp only [Device.readHeads, absent]
  rfl

theorem Device.readHeads_of_present {d : Device} {t : List HeadEntry} (present : d.sth.table = some t) :
    d.readHeads 0 = .ok ([4, 0, 1] ++ t.flatMap HeadEntry.bytes) := by
  simp only [Device.readHeads, present]
  rfl

theorem numberOf_of_val {segment : Byte} {n : Fin 4} (named : segment.toNat = n.val) : numberOf segment = some n := by
  simp [numberOf, named]

/-- What a READ of QUEUES shows of a head before its queue (R140). -/
def Head.shown (h : Head) : List Byte :=
  [h.state.code] ++ (bytesOf 1 (bitsOf [h.disablePending, h.retryUsed, h.lastShift.isSome, h.lastReadback.isSome]) ++
    (headWordBytes .lastShift h.lastShift ++ (headWordBytes .lastReadback h.lastReadback ++ bytesOf 1 h.queue.length)))

theorem Device.readQueues_of_head {segment : Byte} {n : Fin 4} (d : Device) (named : segment.toNat = n.val) :
    d.readQueues segment = .ok ([10, segment] ++ ((d.head n).shown ++ (d.head n).queue.flatMap StampEntry.bytes)) := by
  simp only [Device.readQueues, numberOf_of_val named, Head.shown, readReply, List.append_assoc]
  rfl

theorem Device.readQueues_of_out {segment : Byte} (d : Device) (out : 4 ≤ segment.toNat) : d.readQueues segment = badSegment := by
  simp [Device.readQueues, numberOf, Nat.not_lt.2 out]

theorem headWordBytes_eq_spell (absent : AbsentField) (w : Option Word32) :
    headWordBytes absent w = spell [(4, w.elim (Config.absentValue absent) fun w => w.toNat)] := by
  cases w <;> simp [headWordBytes, absentBytes, spell]

/-- The numbers that a READ of QUEUES shows of a head before its queue (R140). -/
def Head.shownFields (h : Head) : List (Nat × Nat) :=
  [(1, h.state.code.toNat), (1, bitsOf [h.disablePending, h.retryUsed, h.lastShift.isSome, h.lastReadback.isSome]),
    (4, h.lastShift.elim (Config.absentValue .lastShift) fun w => w.toNat),
    (4, h.lastReadback.elim (Config.absentValue .lastReadback) fun w => w.toNat), (1, h.queue.length)]

theorem Head.shown_eq_spell (h : Head) : h.shown = spell h.shownFields := by
  simp [Head.shown, Head.shownFields, headWordBytes_eq_spell, spell, bytesOf_one]

theorem Head.shown_length (h : Head) : h.shown.length = 11 := by
  rw [h.shown_eq_spell, spell_length]
  rfl

theorem Head.shows_shown (h : Head) : Shows h.shown (placed 0 h.shownFields) := (StandsAt.whole _).shows h.shown_eq_spell

/-! ### A queue entry (R210, R211) -/

theorem toNat_append_code {n : Nat} (x : BitVec n) (code : BitVec 4) : (x ++ code).toNat = x.toNat * 16 + code.toNat := by
  rw [BitVec.toNat_append, ← Nat.shiftLeft_add_eq_or_of_lt code.isLt, Nat.shiftLeft_eq]

theorem Wheels.word_toNat (w : Wheels) :
    w.word.toNat =
      ((((w.face.toNat * 16 + w.d1.toNat) * 16 + w.d2.toNat) * 16 + w.d3.toNat) * 16 + w.d4.toNat) * 16 + w.d5.toNat := by
  simp only [Wheels.word, toNat_append_code]

theorem StampEntry.bytes_eq_spell (e : StampEntry) :
    e.bytes = spell [(4, e.hide.toNat), (1, e.slot), (6, e.fire.toNat), (3, e.wheels.word.toNat), (1, e.force)] := by
  simp [StampEntry.bytes, spell]

theorem StampEntry.shows_bytes (e : StampEntry) :
    e.bytes.length = 15 ∧
      Shows e.bytes (placed 0 [(4, e.hide.toNat), (1, e.slot), (6, e.fire.toNat), (3, e.wheels.word.toNat), (1, e.force)]) := by
  rw [e.bytes_eq_spell]
  exact ⟨spell_length _, (StandsAt.whole _).shows rfl⟩

/-- Settles O42: the status block by the numbers that each of its groups spells, of which every conjunct asks for some; each READ by its
tests. -/
theorem queryAndReadsShowTheState : Obligations.QueryAndReadsShowTheState := by
  intro seg s ready
  have reads := fun {c : Instr} {read : Device → Reply} {r : Reply} => exec_of_read (c := c) (read := read) (r := r) ready
  refine ⟨State.request_next ready kindQuery Device.requestQuery, fun segments _ _ => ?block, fun e => ?entry, fun t => ?cal,
    fun out => ⟨reads rfl (if_pos out), reads rfl (if_pos out), reads rfl (if_pos out)⟩, fun inside => ?tables,
    fun out => reads rfl (if_pos out), fun inside => reads rfl (if_neg (Nat.not_le.2 inside)),
    fun out => reads rfl (Device.readQueues_of_out _ out), fun n named => ?queues⟩
  case block =>
    obtain ⟨-, -, -, -, -, -, -, -, -, length⟩ := s.dev.heard.statusBlock_lengths segments
    -- The frame that brings the request changes a receiver, which no group shows.
    have shown : s.dev.ShownIn s.dev.heard.statusBlock := { Device.shownIn_statusBlock (d := s.dev.heard) segments with }
    refine ⟨length, shown.bpu.mono ?bpu, fun o first => shown.bpu.mono ?first, fun o second => shown.bpu.mono ?second,
      fun stopped => shown.bpu.mono ?stopped, fun t running => ⟨_, t.msLeft_near, shown.bpu.mono ?pausing⟩, ?lcn,
      shown.rtk.mono ?rtk, fun o previous => shown.rtk.mono ?previous, shown.hev.mono ?hev, shown.heads,
      fun n => ⟨(shown.head n).mono ?head, fun e rest queue => (shown.head n).mono ?front,
        fun empty => (shown.head n).mono ?noFront⟩,
      shown.nextPack,
      fun n => ⟨(shown.slot n).mono ?slot, fun a filling => (shown.slot n).mono ?filling,
        fun c held => (shown.slot n).mono ?held⟩,
      (shown.lct.append shown.wants).mono ?lct,
      fun n => ⟨(shown.input n).mono ?input, fun t running => ⟨_, t.msLeft_near, (shown.input n).mono ?debouncing⟩⟩,
      fun i inside => ?latches, ?ccu, fun t running => ⟨_, t.msLeft_near, shown.ccu.mono ?committing⟩,
      fun i inside => ?segment, ?lnk⟩
    case bpu => simp [placed, Device.bpuFields]
    case first => simp [placed, Device.bpuFields, first]
    case second => simp [placed, Device.bpuFields, second]
    case stopped => simp [placed, Device.bpuFields, stopped]
    case pausing => simp [placed, Device.bpuFields, running]
    case lcn =>
      cases status : s.dev.lcn.lastStatus with
      | none => exact shown.lcn.mono (by simp [placed, Device.lcnFields, status, barStatusByte])
      | some bar => cases bar <;> exact shown.lcn.mono (by simp [placed, Device.lcnFields, status, barStatusByte])
    case rtk => simp [placed, Device.rtkFields, Rtk.count_openLeather, Rtk.count_openGap, Rtk.count_waits]
    case previous => simp [placed, Device.rtkFields, previous]
    case hev => simp [placed, Device.hevFields, Hev.records]
    case head => simp [placed, Device.headFields]
    case front => simp [placed, Device.headFields, queue]
    case noFront => simp [placed, Device.headFields, empty]
    case slot => simp [placed, Device.slotFields]
    case filling => simp [placed, Device.slotFields, filling]
    case held => simp [placed, Device.slotFields, held]
    case lct => simp [placed, Device.lctFields, Control.word]
    case input => simp [placed, Device.inputFields]
    case debouncing => simp [placed, Device.inputFields, running, Nat.add_right_comm]
    case latches =>
      have bit : i < 32 := by omega
      exact ⟨(shown.pending.testBit_field bit).trans (latchSet_getElem? _ _ i),
        (shown.held.testBit_field bit).trans (latchSet_getElem? _ _ i), shown.mask.testBit_field bit⟩
    case ccu =>
      cases result : s.dev.ccu.lastResult <;>
        exact (shown.ccu.append shown.lock).mono (by simp [placed, Device.ccuFields, result, CommitResult.code])
    case committing => simp [placed, Device.ccuFields, running]
    case segment =>
      have byte := shown.segment i inside
      cases code : s.dev.ccu.segments.getD i .unset <;> rw [code] at byte <;> exact byte
    case lnk =>
      cases assembly : s.dev.lnk.assembly <;> exact shown.lnk.mono (by simp [placed, Device.lnkFields, assembly])
  case entry => exact e.wheels.word_toNat ▸ e.shows_bytes
  case cal =>
    exact ⟨fun out => reads (t.exec_readRow seg s) (Device.readCal_of_out _ out),
      fun inside => reads (t.exec_readRow seg s) (Device.readCal_of_in _ inside)⟩
  case tables =>
    subst inside
    exact ⟨fun absent => reads rfl (Device.readTerms_of_absent absent),
      fun t present => reads rfl (Device.readTerms_of_present present),
      fun absent => reads rfl (Device.readHeads_of_absent absent),
      fun t present => reads rfl (Device.readHeads_of_present present), reads rfl rfl⟩
  case queues =>
    have shown := (s.dev.head n).shows_shown
    refine ⟨(s.dev.head n).shown, (s.dev.head n).shown_length, reads rfl (Device.readQueues_of_head _ named), rfl,
      shown.mono ?fixed, fun w last => shown.word32 ?shift, fun w last => shown.word32 ?readback⟩
    case fixed => simp [placed, Head.shownFields]
    case shift => simp [placed, Head.shownFields, last]
    case readback => simp [placed, Head.shownFields, last]

end Sys2Proof.Machine
end

section
/-!
PROOF. CLOSE_PACK, LOCK_NEXT and CLEAR_COUNTERS (R149, R188, R221, R225): what each request answers and leaves, case by case of its
tests, on the device whose receiver has heard the frame.
-/

namespace Sys2Proof.Machine

/-- A row whose request answers and leaves a device ends with that answer as its reply. -/
theorem exec_of_request {c : Instr} {kind : Byte} {perform : Device → Reply × Device} {r : Reply} {t : Device} {s : State}
    (ready : s.dev.ReadyFor) (row : exec c s = s.request kind perform) (performed : perform s.dev.heard = (r, t)) :
    exec c s = .next ⟨t.replied kind r, s.pending⟩ := by
  rw [row, State.request_next ready, performed]

/-! ### CLOSE_PACK by its tests (R149, R221) -/

theorem numberOf_of_out {b : Byte} (out : 4 ≤ b.toNat) : numberOf b = none := dif_neg (Nat.not_lt.2 out)

theorem Device.requestClosePack_of_out {slot : Byte} (d : Device) (out : 4 ≤ slot.toNat) :
    d.requestClosePack slot = (badField 1 slot, d) := by
  simp only [Device.requestClosePack, numberOf_of_out out]

section
variable {slot : Byte} {n : Fin 4} {d : Device} {p : Pack}

theorem Device.requestClosePack_of_empty (named : slot.toNat = n.val) (empty : (d.slot n).acc = none) :
    d.requestClosePack slot = (.ok ([slot, 0] ++ bytesOf 4 0 ++ bytesOf 2 0), d) := by
  simp only [Device.requestClosePack, numberOf_of_val named, empty]

theorem Device.requestClosePack_of_held (named : slot.toNat = n.val) (filling : (d.slot n).acc = some p)
    (held : (d.slot n).buf ≠ none) : d.requestClosePack slot = (.refuse .notNow 0, d) := by
  simp only [Device.requestClosePack, numberOf_of_val named, filling, if_pos (Option.isSome_iff_ne_none.2 held)]

theorem Device.requestClosePack_of_free (named : slot.toNat = n.val) (filling : (d.slot n).acc = some p)
    (free : (d.slot n).buf = none) :
    d.requestClosePack slot =
      (.ok ([slot, 1] ++ bytesOf 4 p.number.toNat ++ bytesOf 2 p.hides), d.closePack n .shortOnly) := by
  simp [Device.requestClosePack, numberOf_of_val named, filling, free]

end

/-! ### LOCK_NEXT (R188) -/

theorem Ccu.lockNext_lock (c : Ccu) : c.lockNext.lock = ⟨true, c.lock.locked⟩ := rfl

/-- With LOCK_NEXT set, LOCKED decides between the two bytes that answer (R209). -/
theorem LockFlags.byte_of_lockNext (locked : Bool) : LockFlags.byte ⟨true, locked⟩ = if locked then 3 else 1 := by
  cases locked <;> rfl

/-- Settles O50: CLOSE_PACK by the tests of its slot, the close itself by what it does with the report FIFO; LOCK_NEXT by the byte of the
flags it leaves; CLEAR_COUNTERS by its own equation. -/
theorem closePackLockNextAndClearCounters : Obligations.ClosePackLockNextAndClearCounters := by
  intro slot s ready four
  refine ⟨fun out => exec_of_request ready rfl (Device.requestClosePack_of_out _ out),
    fun n named => ⟨fun empty => exec_of_request ready rfl (Device.requestClosePack_of_empty named empty),
      fun p filling held => exec_of_request ready rfl (Device.requestClosePack_of_held named filling held),
      fun p filling free => ?closed⟩,
    ?locks, exec_of_request ready rfl rfl⟩
  case closed =>
    have performed := Device.requestClosePack_of_free (d := s.dev.heard) named filling free
    rw [Device.closePack_eq (d := s.dev.heard) .shortOnly four filling free] at performed
    exact exec_of_request ready rfl performed
  case locks =>
    refine exec_of_request ready rfl ?_
    rw [Device.requestLockNext, Ccu.lockNext_lock, LockFlags.byte_of_lockNext]
    rfl

end Sys2Proof.Machine
end

section
/-!
PROOF. START, STOP and ACK_FAULT (R159, R160, R164): what each request answers and leaves, case by case of its tests, on the device whose
receiver has heard the frame; and what each head becomes as the heads leave FAULTED, one after another (R137).
-/

namespace Sys2Proof.Machine

section
variable {d : Device}

/-! ### START by its tests (R159) -/

theorem Device.startRefusal_of_committing (committing : d.ccu.committing = true) : d.startRefusal = some ⟨.notNow, 0, []⟩ :=
  if_pos committing

theorem Device.startRefusal_of_invalid (settled : d.ccu.committing = false) (invalid : d.ccu.valid = false) :
    d.startRefusal = some ⟨.wrongState, 2, []⟩ := by
  simp [Device.startRefusal, settled, invalid, Reply.refuse, reasonCalInvalid]

theorem Device.startRefusal_of_noTerms (settled : d.ccu.committing = false) (valid : d.ccu.valid = true)
    (noTerms : d.hev.terms = none) : d.startRefusal = some ⟨.wrongState, 3, []⟩ := by
  simp [Device.startRefusal, settled, valid, noTerms, Reply.refuse, reasonNoTerms]

theorem Device.startRefusal_of_noHeads (settled : d.ccu.committing = false) (valid : d.ccu.valid = true)
    (terms : d.hev.terms ≠ none) (noHeads : d.sth.table = none) : d.startRefusal = some ⟨.wrongState, 4, []⟩ := by
  simp [Device.startRefusal, settled, valid, terms, noHeads, Reply.refuse, reasonNoHeads]

theorem Device.startRefusal_of_allowed (settled : d.ccu.committing = false) (valid : d.ccu.valid = true)
    (terms : d.hev.terms ≠ none) (heads : d.sth.table ≠ none) : d.startRefusal = none := by
  simp [Device.startRefusal, settled, valid, terms, heads]

theorem Device.requestStart_of_running (running : d.lct.lineState = .running) : d.requestStart = (.ok [2], d) := by
  simp [Device.requestStart, Device.lineStateReply, running, LineState.code]

theorem Device.requestStart_of_faulted (faulted : d.lct.lineState = .faulted) :
    d.requestStart = (⟨.wrongState, 1, []⟩, d) := by
  simp [Device.requestStart, faulted, Reply.refuse, reasonLineState]

theorem Device.requestStart_of_refused {r : Reply} (halted : d.lct.lineState = .idle ∨ d.lct.lineState = .paused)
    (refused : d.startRefusal = some r) : d.requestStart = (r, d) := by
  rcases halted with line | line <;> simp [Device.requestStart, line, refused]

theorem Device.requestStart_of_allowed (halted : d.lct.lineState = .idle ∨ d.lct.lineState = .paused)
    (allowed : d.startRefusal = none) : d.requestStart = (.ok [2], d.runLine) := by
  have answer : d.runLine.lineStateReply = .ok [2] := rfl
  rcases halted with line | line <;> simp [Device.requestStart, line, allowed, answer]

/-! ### STOP by the line state (R160) -/

theorem Device.stopLine_of_running (running : d.lct.lineState = .running) :
    d.stopLine = { d with
      bpu := { d.bpu with
        freeRunLeft := 0
        pauseTimer := if d.bpu.outstanding = [] then d.bpu.pauseTimer else Timer.start 50 false }
      lct := { d.lct with lineState := .paused, haltCause := .stop } } := by
  simp [Device.stopLine, Device.pauseLine, Bpu.leaveRunning, running]

theorem Device.stopLine_of_paused (paused : d.lct.lineState = .paused) :
    d.stopLine = { d with lct := { d.lct with haltCause := .stop } } := by
  simp only [Device.stopLine, paused]

theorem Device.stopLine_of_idle (idle : d.lct.lineState = .idle) : d.stopLine = d := by
  simp only [Device.stopLine, idle]

theorem Device.stopLine_of_faulted (faulted : d.lct.lineState = .faulted) : d.stopLine = d := by
  simp only [Device.stopLine, faulted]

/-- A STOP answers the line state that it leaves. -/
theorem Device.requestStop_of_stopLine {t : Device} {l : LineState} (stopped : d.stopLine = t) (line : t.lct.lineState = l) :
    d.requestStop = (.ok [l.code], t) := by
  rw [Device.requestStop, stopped, Device.lineStateReply, line]

/-! ### ACK_FAULT by its tests (R164) -/

theorem Device.requestAckFault_of_notFaulted (line : d.lct.lineState ≠ .faulted) :
    d.requestAckFault = (⟨.wrongState, 1, []⟩, d) := if_pos line

theorem Device.requestAckFault_of_estop (faulted : d.lct.lineState = .faulted) (estop : d.lct.estop = true) :
    d.requestAckFault = (⟨.wrongState, 5, []⟩, d) := by
  simp [Device.requestAckFault, faulted, estop, Reply.refuse, reasonEstopActive]

theorem Device.leaveFault_lct (d : Device) : d.leaveFault.lct = { d.lct with lineState := .paused } :=
  Device.resumeHeads_touches { d with lct := { d.lct with lineState := .paused } } .lct (by decide)

theorem Device.requestAckFault_of_allowed (faulted : d.lct.lineState = .faulted) (clear : d.lct.estop = false) :
    d.requestAckFault = (.ok [3], d.leaveFault) := by
  have answer : d.leaveFault.lineStateReply = .ok [3] := by rw [Device.lineStateReply, Device.leaveFault_lct]; rfl
  simp [Device.requestAckFault, faulted, clear, answer]

end

/-! ### The heads as the line leaves FAULTED (R137) -/

/-- What a head becomes where the line is not FAULTED: IDLE with work, it is SETTING for its front entry (R122). -/
def Head.resumed (setTime : Nat) (h : Head) : Head :=
  match h.state, h.queue with
  | .idle, e :: _ => { h with
    state := .setting, retryUsed := false, lastShift := some e.shiftWord
    timer := Timer.start setTime false }
  | _, _ => h

theorem Head.resumed_of_idle {h : Head} {e : StampEntry} {rest : List StampEntry} (setTime : Nat) (idle : h.state = .idle)
    (front : h.queue = e :: rest) :
    h.resumed setTime = { h with
      state := .setting, retryUsed := false, lastShift := some e.shiftWord
      timer := Timer.start setTime false } := by
  simp only [Head.resumed, idle, front]

theorem Head.resumed_of_empty {h : Head} (setTime : Nat) (empty : h.queue = []) : h.resumed setTime = h := by
  simp [Head.resumed, empty]

theorem Head.resumed_of_busy {h : Head} (setTime : Nat) (busy : h.state ≠ .idle) : h.resumed setTime = h := by
  simp [Head.resumed, busy]

/-- The head that stands written back changes nothing. -/
theorem Device.setHead_head (n : Fin 4) (d : Device) : d.setHead n (d.head n) = d := by
  have same : d.sth.heads.set n (d.head n) = d.sth.heads := by
    by_cases inside : n.val < d.sth.heads.length
    · simp [Device.head, inside]
    · exact List.set_eq_of_length_le (Nat.not_lt.1 inside)
  rw [Device.setHead, same]

/-- Where the line is not FAULTED, the start of setting writes its one head. -/
theorem Device.startSetting_eq_setHead {d : Device} (n : Fin 4) (line : d.lct.lineState ≠ .faulted) :
    d.startSetting n false = d.setHead n ((d.head n).resumed (d.headEntry n).setTime) := by
  by_cases idle : (d.head n).state = .idle
  · cases front : (d.head n).queue with
    | nil =>
      rw [Head.resumed_of_empty _ front, Device.setHead_head]
      simp only [Device.startSetting, front]
    | cons e rest => rw [Head.resumed_of_idle _ idle front, Device.startSetting_of_idle false front idle line]
  · rw [Head.resumed_of_busy _ idle, Device.setHead_head, Device.startSetting_of_busy false (.inl idle)]

/-- Each head of a list without repeats is resumed once, by its own queue and entry; the others stand. -/
theorem Device.head_startSettings {n : Fin 4} {l : List (Fin 4)} {d : Device} (once : l.Nodup) (four : d.sth.heads.length = 4)
    (line : d.lct.lineState ≠ .faulted) :
    (l.foldl (fun d n => d.startSetting n false) d).head n =
      if n ∈ l then (d.head n).resumed (d.headEntry n).setTime else d.head n := by
  induction l generalizing d with
  | nil => simp
  | cons m l ih =>
    obtain ⟨fresh, once⟩ := List.nodup_cons.1 once
    rw [List.foldl_cons, Device.startSetting_eq_setHead m line, ih (d := d.setHead m _) once (by simp [four]) line,
      Device.headEntry_setHead]
    by_cases same : m = n
    · subst same
      rw [Device.head_setHead four, if_neg fresh, if_pos (List.mem_cons_self ..)]
    · rw [Device.head_setHead_ne same]
      simp only [List.mem_cons, Ne.symm same, false_or]

theorem Device.leaveFault_head {d : Device} (n : Fin 4) (four : d.sth.heads.length = 4) :
    d.leaveFault.head n = (d.head n).resumed (d.headEntry n).setTime := by
  have all : n ∈ headNumbers := by revert n; decide
  have once : headNumbers.Nodup := by decide
  exact (Device.head_startSettings (d := { d with lct := { d.lct with lineState := .paused } }) once four nofun).trans (if_pos all)

/-- Settles O41: each request by the test that decides it; an ACK_FAULT that is taken by what leaving FAULTED makes of each head. -/
theorem lineStateRequestsMoveTheLine : Obligations.LineStateRequestsMoveTheLine := by
  intro s ready
  have starts := fun {r t} => exec_of_request (c := .start) (perform := Device.requestStart) (r := r) (t := t) ready rfl
  have stops := fun {t} l stopped line => exec_of_request (c := .stop) ready rfl
    (Device.requestStop_of_stopLine (d := s.dev.heard) (t := t) (l := l) stopped line)
  have acks := fun {r t} => exec_of_request (c := .ackFault) (perform := Device.requestAckFault) (r := r) (t := t) ready rfl
  refine ⟨fun running => starts (Device.requestStart_of_running running),
    fun faulted => starts (Device.requestStart_of_faulted faulted), fun halted => ?halted,
    fun running => stops .paused (Device.stopLine_of_running running) rfl,
    fun paused => stops .paused (Device.stopLine_of_paused paused) paused,
    fun idle => stops .idle (Device.stopLine_of_idle idle) idle,
    fun faulted => stops .faulted (Device.stopLine_of_faulted faulted) faulted,
    fun line => acks (Device.requestAckFault_of_notFaulted line),
    fun faulted estop => acks (Device.requestAckFault_of_estop faulted estop), fun faulted clear four => ?resumed⟩
  case halted =>
    have refuses := fun {r} refused => starts (Device.requestStart_of_refused (d := s.dev.heard) (r := r) halted refused)
    exact ⟨fun committing => refuses (Device.startRefusal_of_committing committing),
      fun settled invalid => refuses (Device.startRefusal_of_invalid settled invalid),
      fun settled valid noTerms => refuses (Device.startRefusal_of_noTerms settled valid noTerms),
      fun settled valid terms noHeads => refuses (Device.startRefusal_of_noHeads settled valid terms noHeads),
      fun settled valid terms heads =>
        starts (Device.requestStart_of_allowed halted (Device.startRefusal_of_allowed settled valid terms heads))⟩
  case resumed =>
    exact ⟨s.dev.heard.leaveFault, acks (Device.requestAckFault_of_allowed faulted clear), s.dev.heard.leaveFault_lct,
      s.dev.heard.leaveFault_touches, fun n => Device.leaveFault_head (d := s.dev.heard) n four⟩

end Sys2Proof.Machine
end

section
/-!
PROOF. What a command in service can do to the device, said once: Device.Runs gives it block by block, each change with what it keeps
of its block. The invariants that every step keeps are inductions on it.
-/

namespace Sys2Proof.Machine

/-! ### The changes of each block -/

/-- The outstanding lines that a trigger leaves: of two or more, the oldest is retired (R12). -/
def olderRetired : List Outstanding → List Outstanding
  | _ :: p :: rest => p :: rest
  | l => l

/-- What a command can do to the BPU, with the number that the divider is loaded with (R1 to R14, R19). -/
inductive Bpu.Moves (load : Nat) (b : Bpu) : Bpu → Prop
  | free (pause : Timer) (left : Nat) (encA encB : Bool) :
    Bpu.Moves load b { b with pauseTimer := pause, freeRunLeft := left, encA := encA, encB := encB }
  | forward : Bpu.Moves load b b.forward
  | backward : Bpu.Moves load b b.backward
  | retired {l : List Outstanding} (newest : l <:+ b.outstanding) : Bpu.Moves load b { b with outstanding := l }
  | counted (high : 1 < b.divider) : Bpu.Moves load b { b with divider := b.divider - 1 }
  | triggered :
    Bpu.Moves load b { b with
      outstanding := olderRetired b.outstanding ++ [⟨b.nextLine, b.position⟩]
      nextLine := b.nextLine + 1, divider := load, triggerLine := false }
  | lineReset : Bpu.Moves load b (b.lineReset load)

/-- What a command keeps of the LCN (R24 to R28, R34). -/
structure Lcn.Moves (c m : Lcn) : Prop where
  bounds : c.queueInBounds → m.queueInBounds
  entries : ∀ e ∈ m.queue, e ∈ c.queue ∨ e.content.runsApart

/-- What a command keeps of the LCT: INIT is not entered, the rate stays legal, the tables keep their sizes. -/
structure Lct.Moves (l m : Lct) : Prop where
  afterInit : l.lineState ≠ .init → m.lineState ≠ .init
  rate : 1 ≤ l.control.rate ∧ l.control.rate ≤ 64 → 1 ≤ m.control.rate ∧ m.control.rate ≤ 64
  table : l.table.length = 8 → m.table.length = 8
  inputs : m.inputs.length = l.inputs.length
  latches : m.latches.length = l.latches.length
  mask : m.mask.length = l.mask.length

/-- The sizes of the evaluator's lists (R72, R98). -/
def Hev.sized (v : Hev) : Prop := v.store.length = 24 ∧ ∀ t, v.terms = some t → t.classes.length = 8

/-- What a command can do to a stamp queue (R116, R117, R134, R138, R142). A command that makes offers admits entries; one that makes
none removes entries. -/
inductive QueueMoves (offers : Bool) (legal : Prop) (q : List StampEntry) : List StampEntry → Prop
  | same : QueueMoves offers legal q q
  | cleared : QueueMoves offers legal q []
  | fewer {l : List StampEntry} (fewer : l.Sublist q) (no : offers = false) : QueueMoves offers legal q l
  | admitted (e : StampEntry) {spacing : Nat} (positive : legal → 1 ≤ spacing)
      (free : crowded spacing e.fire (splitQueue e.fire q).1 (splitQueue e.fire q).2 = false) (yes : offers = true) :
    QueueMoves offers legal q ((splitQueue e.fire q).1 ++ e :: (splitQueue e.fire q).2)

/-- What a command can do to the STH (R113, R115, R128, R142). -/
inductive Sth.Moves (offers : Bool) (s : Sth) : Sth → Prop
  | head (n : Fin 4) {h : Head} (strike : (s.heads.getD n Head.reset).strikeInStriking → h.strikeInStriking)
      (queue : QueueMoves offers s.spacingsLegal (s.heads.getD n Head.reset).queue h.queue) :
    Sth.Moves offers s { s with heads := s.heads.set n h }
  | lineReset : Sth.Moves offers s { s with heads := s.heads.map Head.lineReset }
  | load {t : List HeadEntry} (four : t.length = 4) (spacings : ∀ e ∈ t, 1 ≤ e.spacing) :
    Sth.Moves offers s ⟨some t, List.zipWith Head.afterLoad t s.heads⟩

/-- What a command can do to the RTK, a line operation apart (R41 to R71). -/
inductive Rtk.Moves (queue : List QueueEntry) (k : Rtk) : Rtk → Prop
  | table {m : Rtk} (lists : k.tableOnly { m with retryPending := k.retryPending, linesProcessed := k.linesProcessed })
      (size : m.table.length = k.table.length) (areas : k.areasFit → m.areasFit) : Rtk.Moves queue k m
  | taken {e : QueueEntry} (waits : e ∈ queue) : Rtk.Moves queue k { k with work := some ⟨e, 0⟩ }
  | replayed {w : Work} (underWay : k.work = some w) (left : w.done < w.entry.replays)
      (fill : w.entry.content = .fill → w.done + 1 < w.entry.replays) :
    Rtk.Moves queue k { k with work := some { w with done := w.done + 1 } }
  | ended : Rtk.Moves queue k { k with work := none }
  | flushed : Rtk.Moves queue k { k with prev := .empty }
  | lineReset : Rtk.Moves queue k k.lineReset

/-- What a request or the end of a commit can do to the CCU, the completed seal write apart (R180 to R188). -/
inductive Ccu.Moves (draws : Nat) (c : Ccu) : Ccu → Prop
  | loaded (t : CalTable) {segment : Nat} {words : List Nat} (unlocked : c.lock.locked = false) (idle : c.committing = false)
      (inside : segment < t.segments) (length : words.length = t.words segment)
      (legal : ∀ k w, words[k]? = some w → wordLegal (t.start segment + k + 1) w = true) :
    Ccu.Moves draws c (c.loadSegment t segment words)
  | started (unlocked : c.lock.locked = false) (idle : c.committing = false)
      (set : ∀ i < 16, c.segments.getD i .unset ≠ .unset) :
    Ccu.Moves draws c ({ c with
      committing := true, commitTimer := Timer.start 400 false, store := c.store.setSeal c.target none }.eraseOn draws)
  | failed (committing : c.committing = true) : Ccu.Moves draws c c.failCommit.promoteIfPending
  | lockNext : Ccu.Moves draws c c.lockNext
  | lineReset : Ccu.Moves draws c c.lineReset

/-- What a command can do to the link and the owed list, replies apart (R195 to R203, R213). -/
inductive Device.LinkMoves (d : Device) : Device → Prop
  | receiver (port : Port) (r : Receiver) : Device.LinkMoves d (d.setReceiver port r)
  | assembly (a : Option Assembly) : Device.LinkMoves d (d.setAssembly a)
  | counters (bad forward upstream loads : Nat) :
    Device.LinkMoves d { d with lnk := { d.lnk with
      badFrames := bad, forwardDrops := forward, upstreamDrops := upstream, incompleteLoads := loads } }
  | report (f : Frame) : Device.LinkMoves d (d.placeReport f)
  | forwarded (f : Frame) (room : d.lnk.forwardFifo.length < forwardCapacity) :
    Device.LinkMoves d { d with lnk := { d.lnk with forwardFifo := d.lnk.forwardFifo ++ [f] } }.wakeTx
  | upstream {tx : Option Frame} {fifo : List Frame}
      (bounds : d.lnk.upFifo.length ≤ 4 → (d.lnk.upTx = none → d.lnk.upFifo = []) → fifo.length ≤ 4 ∧ (tx = none → fifo = [])) :
    Device.LinkMoves d { d with lnk := { d.lnk with upTx := tx, upFifo := fifo } }
  | sent : Device.LinkMoves d d.sendNext
  | owed (kind : Byte) (room : d.dec.owed.length < owedCapacity) (full : d.noReplyPlace = true) :
    Device.LinkMoves d { d with dec := { d.dec with owed := d.dec.owed ++ [kind] } }

/-! ### What a command can do -/

/-- What a command in service can do to the device, one block after another; whether it makes offers tells what it can do to the stamp
queues, and whether it replies, that a reply can be placed: for a request that found a place, and for a waiting one whose reservation it
takes. What either performs places none. -/
inductive Device.Runs (offers : Bool) : Bool → Device → Device → Prop
  | refl {replies : Bool} (d : Device) : Device.Runs offers replies d d
  | trans {replies : Bool} {d e t : Device} (first :
    Device.Runs offers replies d e) (second : Device.Runs offers replies e t) : Device.Runs offers replies d t
  | belt {replies : Bool} {d : Device} {b : Bpu} (h : Bpu.Moves d.ccu.dividerLoad d.bpu b) :
    Device.Runs offers replies d { d with bpu := b }
  | conditioner {replies : Bool} {d : Device} {c : Lcn} (h : d.lcn.Moves c) : Device.Runs offers replies d { d with lcn := c }
  | tracker {replies : Bool} {d : Device} {k : Rtk} (h : Rtk.Moves d.lcn.queue d.rtk k) :
    Device.Runs offers replies d { d with rtk := k }
  | evaluator {replies : Bool} {d : Device} {v : Hev} (h : d.hev.sized → v.sized) :
    Device.Runs offers replies d { d with hev := v }
  | heads {replies : Bool} {d : Device} {s : Sth} (h : Sth.Moves offers d.sth s) :
    Device.Runs offers replies d { d with sth := s }
  | packs {replies : Bool} {d : Device} {p : Pku} (h : d.pku.slots.length = 4 → p.slots.length = 4) :
    Device.Runs offers replies d { d with pku := p }
  | control {replies : Bool} {d : Device} {l : Lct} (h : d.lct.Moves l) : Device.Runs offers replies d { d with lct := l }
  | custody {replies : Bool} {d : Device} {c : Ccu} (h : Ccu.Moves d.draws d.ccu c) :
    Device.Runs offers replies d { d with ccu := c }
  | link {replies : Bool} {d t : Device} (h : d.LinkMoves t) : Device.Runs offers replies d t
  | drawn {replies : Bool} (d : Device) (n : Nat) : Device.Runs offers replies d { d with draws := n }
  | answered {d e : Device} (message : List Byte) (place : d.noReplyPlace = false) (perform : Device.Runs offers false d e) :
    Device.Runs offers true d (e.placeReply message)
  | waits {d : Device} (w : Waiting) (place : d.noReplyPlace = false) :
    Device.Runs offers true d { d with
      dec := { d.dec with reservations := d.dec.reservations + 1 }
      rtk := { d.rtk with waiting := d.rtk.waiting ++ [w] } }
  | served {d e : Device} {w : Waiting} {rest : List Waiting} (message : List Byte) (waiting : d.rtk.waiting = w :: rest)
      (perform : Device.Runs offers false { d with rtk := { d.rtk with waiting := rest } } e) :
    Device.Runs offers true d (Device.placeReply message
      { e with dec := { e.dec with reservations := e.dec.reservations - 1 } })
  | lineOperation {replies : Bool} {d e : Device} (c : LineContext) {runs : List Run}
      (source : runs = d.rtk.prev.runs.map spanRun ∨ ∃ w status, d.rtk.work = some w ∧ w.entry.content = .line status runs)
      (offered : Device.Runs offers replies { d with rtk := d.rtk.stages2to7 c runs } e)
      (lists : (d.rtk.stages2to7 c runs).sameLists e.rtk) (queue : e.lcn = d.lcn) :
    Device.Runs offers replies d { e with rtk := e.rtk.stage9 c }

theorem Lct.Moves.refl (l : Lct) : l.Moves l := ⟨id, id, id, rfl, rfl, rfl⟩

theorem Lct.Moves.trans {l m n : Lct} (h : l.Moves m) (g : m.Moves n) : l.Moves n :=
  ⟨g.afterInit ∘ h.afterInit, g.rate ∘ h.rate, g.table ∘ h.table, g.inputs.trans h.inputs, g.latches.trans h.latches,
    g.mask.trans h.mask⟩

theorem Lct.setLatch_moves (l : Lct) (n : Latch) (f : LatchState → LatchState) : l.Moves (l.setLatch n f) :=
  ⟨id, id, id, rfl, updateAt_length _ _ _, rfl⟩

theorem Lct.raise_moves (l : Lct) (n : Latch) : l.Moves (l.raise n) := l.setLatch_moves n _

/-- A change of the line state, the cause, the conditions and the latches. -/
theorem Lct.line_moves (l : Lct) {s : LineState} {c : HaltCause} {b e : Bool} (h : l.lineState ≠ .init → s ≠ .init) :
    l.Moves { l with lineState := s, haltCause := c, beltRun := b, estop := e } := ⟨h, id, id, rfl, rfl, rfl⟩

namespace Device.Runs

variable {a replies : Bool} {d : Device}

theorem fold {α : Type} {f : Device → α → Device} (h : ∀ d x, Device.Runs a replies d (f d x)) :
    ∀ (l : List α) (d : Device), Device.Runs a replies d (l.foldl f d)
  | [], d => .refl d
  | x :: l, d => (h d x).trans (fold h l (f d x))

theorem raise (n : Latch) (d : Device) : Device.Runs a replies d (d.raise n) := .control (d.lct.raise_moves n)

end Device.Runs

end Sys2Proof.Machine
end

section
/-!
PROOF. The region table through the stages of a line operation and FLUSH: it keeps its size, and its areas stay within 64 bits
(R41, R52, R55).
-/

namespace Sys2Proof.Machine

/-- The table keeps its size, and areas that fit go on fitting. -/
structure Rtk.TableKept (k m : Rtk) : Prop where
  size : m.table.length = k.table.length
  areas : k.areasFit → m.areasFit

theorem Rtk.TableKept.refl (k : Rtk) : k.TableKept k := ⟨rfl, id⟩

theorem Rtk.TableKept.trans {k m n : Rtk} (h : k.TableKept m) (g : m.TableKept n) : k.TableKept n :=
  ⟨g.size.trans h.size, g.areas ∘ h.areas⟩

theorem Rtk.TableKept.fold {α : Type} {f : Rtk → α → Rtk} (h : ∀ (k : Rtk) x, k.TableKept (f k x)) (l : List α) (k : Rtk) :
    k.TableKept (l.foldl f k) := Rtk.foldl_rel Rtk.TableKept.refl Rtk.TableKept.trans h l k

theorem Rtk.region_area {k : Rtk} (fit : k.areasFit) (i : Nat) : (k.region i).area ≤ 2 ^ 64 - 1 := by
  unfold Rtk.region
  rw [List.getD_eq_getElem?_getD]
  cases found : k.table[i]? with
  | none => exact Nat.zero_le _
  | some r => exact fit r (List.mem_of_getElem? found)

theorem Rtk.areasFit.setRegion {k : Rtk} (fit : k.areasFit) (i : Nat) {r : Region} (fits : r.area ≤ 2 ^ 64 - 1) :
    (k.setRegion i r).areasFit :=
  fun x hx => (List.mem_or_eq_of_mem_set hx).elim (fit x) fun e => e ▸ fits

theorem Rtk.setRegion_tableKept {k : Rtk} (i : Nat) {r : Region} (fits : k.areasFit → r.area ≤ 2 ^ 64 - 1) :
    k.TableKept (k.setRegion i r) := ⟨List.length_set, fun fit => fit.setRegion i (fits fit)⟩

/-- An entry changed, but for its area. -/
theorem Rtk.setRegion_sameArea {k : Rtk} (i j : Nat) {r : Region} (same : r.area = (k.region j).area) :
    k.TableKept (k.setRegion i r) := Rtk.setRegion_tableKept i fun fit => same ▸ Rtk.region_area fit j

theorem Rtk.table_map_tableKept (k : Rtk) {f : Region → Region} (same : ∀ r, (f r).area = r.area) :
    k.TableKept { k with table := k.table.map f } := by
  refine ⟨List.length_map f, fun fit r hr => ?_⟩
  obtain ⟨x, hx, rfl⟩ := List.mem_map.1 hr
  exact (same x).symm ▸ fit x hx

theorem sat64_fits (x y : Nat) : sat64 x y ≤ 2 ^ 64 - 1 := Nat.min_le_right _ _

theorem Rtk.mergeInto_tableKept (c : LineContext) (survivor : Nat) (k : Rtk) (loser : Nat) :
    k.TableKept (k.mergeInto c survivor loser) :=
  ⟨List.length_set.trans List.length_set, fun fit =>
    (fit.setRegion survivor (sat64_fits _ _)).setRegion loser (Rtk.region_area fit loser)⟩

theorem Rtk.joinSpan_tableKept (c : LineContext) (kind : RegionKind) (roots : List Nat) (first last : Nat) (openTop : Bool)
    (k : Rtk) : k.TableKept (k.joinSpan c kind roots first last openTop).1 := by
  unfold Rtk.joinSpan
  split
  · unfold Rtk.allocate
    split
    · exact ⟨rfl, id⟩
    · rename_i rest _
      exact Rtk.TableKept.trans (m := { k with stack := rest }) ⟨rfl, id⟩ (Rtk.setRegion_tableKept _ fun _ => Nat.zero_le _)
  · exact (Rtk.TableKept.fold (Rtk.mergeInto_tableKept c _) _ k).trans (Rtk.setRegion_sameArea _ _ rfl)

theorem Rtk.matchRun_tableKept (c : LineContext) (k : Rtk) (r : Run) : k.TableKept (k.matchRun c r) :=
  have joined := Rtk.joinSpan_tableKept c .leather (k.rootsOver c.diagJoin k.prev.runs r.first r.last) r.first r.last false k
  ⟨joined.size, joined.areas⟩

theorem Rtk.matchGap_tableKept (c : LineContext) (k : Rtk) (g : Run) : k.TableKept (k.matchGap c g) :=
  have joined := Rtk.joinSpan_tableKept c .gap (k.rootsOver c.diagJoin k.prev.gaps g.first g.last) g.first g.last
    (coveredBy k.prev.runs g.first g.last).isNone k
  ⟨joined.size, joined.areas⟩

theorem Rtk.accumulate_tableKept (c : LineContext) (k : Rtk) (s : Span) : k.TableKept (k.accumulate c s) := by
  unfold Rtk.accumulate
  split
  · exact .refl k
  · exact Rtk.setRegion_tableKept _ fun _ => sat64_fits _ _

theorem Rtk.markEdge_tableKept (k : Rtk) (s : Span) : k.TableKept (k.markEdge s) := by
  unfold Rtk.markEdge
  repeat' split
  · exact .refl k
  · exact Rtk.setRegion_sameArea _ _ rfl
  · exact .refl k

theorem leaveRing_area (c : LineContext) (r : Region) (l : List Anchor) : (leaveRing c r l).area = r.area := by
  induction l generalizing r with
  | nil => rfl
  | cons x l ih =>
    unfold leaveRing
    split
    · rw [ih]
      split <;> rfl
    · rfl

theorem Rtk.pushAnchor_tableKept (c : LineContext) (k : Rtk) (root : Nat) : k.TableKept (k.pushAnchor c root) := by
  unfold Rtk.pushAnchor
  split
  · exact .refl k
  · exact Rtk.setRegion_sameArea _ _ (leaveRing_area _ _ _)

theorem Rtk.stage3_tableKept (c : LineContext) (k : Rtk) : k.TableKept (k.stage3 c) := by
  have anchors (k : Rtk) (roots : List Nat) : k.TableKept (roots.foldl (Rtk.pushAnchor c) k) :=
    .fold (Rtk.pushAnchor_tableKept c) roots k
  have counts (k : Rtk) (roots : List Nat) : k.TableKept (roots.foldl Rtk.countFill k) :=
    .fold (fun k root => (Rtk.setRegion_sameArea root root rfl : k.TableKept (k.countFill root))) roots k
  have sums := (Rtk.TableKept.fold (Rtk.accumulate_tableKept c) k.cur.runs k).trans
    (.fold Rtk.markEdge_tableKept (k.cur.runs.foldl (Rtk.accumulate c) k).cur.runs _)
  unfold Rtk.stage3
  dsimp only
  split
  · exact (sums.trans (anchors _ _)).trans (counts _ _)
  · exact sums.trans (anchors _ _)

theorem Rtk.stage4_tableKept (c : LineContext) (k : Rtk) : k.TableKept (k.stage4 c) :=
  (Rtk.TableKept.fold (Rtk.matchGap_tableKept c) _ k).trans (.fold (Rtk.accumulate_tableKept c) _ _)

theorem Rtk.release_tableKept (k : Rtk) (i : Nat) : k.TableKept (k.release i) :=
  Rtk.TableKept.trans (m := { k with stack := i :: k.stack }) ⟨rfl, id⟩ (Rtk.setRegion_tableKept i fun _ => Nat.zero_le _)

theorem Rtk.stage5_tableKept (k : Rtk) : k.TableKept k.stage5 :=
  Rtk.TableKept.trans (m := { k with prev := k.relabel k.prev, cur := k.relabel k.cur }) ⟨rfl, id⟩
    (.fold Rtk.release_tableKept _ _)

theorem Region.addHole_area (now exhaustion : Word32) (r gap : Region) : (r.addHole now exhaustion gap).area = r.area := by
  unfold Region.addHole
  dsimp only
  repeat' split
  all_goals rfl

theorem Rtk.closeGap_tableKept (now : Word32) (k : Rtk) (i : Nat) : k.TableKept (k.closeGap now i) := by
  unfold Rtk.closeGap
  split
  · exact (Rtk.setRegion_sameArea _ _ (Region.addHole_area _ _ _ _)).trans (Rtk.release_tableKept _ i)
  · exact Rtk.release_tableKept k i

theorem Rtk.stage6_tableKept (now : Word32) (k : Rtk) : k.TableKept (k.stage6 now) :=
  .fold (Rtk.closeGap_tableKept now) _ k

theorem Region.closeLeather_area (exhaustion : Word32) (truncated : Bool) (r : Region) :
    (r.closeLeather exhaustion truncated).area = r.area := by
  unfold Region.closeLeather
  split <;> rfl

theorem Rtk.stage7_tableKept (truncated : Bool) (k : Rtk) : k.TableKept (k.stage7 truncated) :=
  Rtk.table_map_tableKept k (Region.closeLeather_area k.exhaustion truncated)

/-- The stages of a line operation before its offers. -/
theorem Rtk.stages2to7_tableKept (c : LineContext) (runs : List Run) (k : Rtk) : k.TableKept (k.stages2to7 c runs) :=
  (((((Rtk.TableKept.fold (Rtk.matchRun_tableKept c) runs k).trans (Rtk.stage3_tableKept c _)).trans
    (Rtk.stage4_tableKept c _)).trans (Rtk.stage5_tableKept _)).trans (Rtk.stage6_tableKept _ _)).trans
    (Rtk.stage7_tableKept false _)

theorem Rtk.stage9_tableKept (c : LineContext) (k : Rtk) : k.TableKept (k.stage9 c) :=
  Rtk.TableKept.trans (Rtk.table_map_tableKept k (f := fun r => { r with touched := false }) fun _ => rfl) ⟨rfl, id⟩

theorem Rtk.closeGap_tableOnly (now : Word32) (k : Rtk) (i : Nat) : k.tableOnly (k.closeGap now i) := by
  unfold Rtk.closeGap
  split <;> rfl

/-- FLUSH's stages 6 and 7 change the table and the stack alone. -/
theorem Rtk.flushStages_tableOnly (now : Word32) (k : Rtk) : k.tableOnly ((k.stage6 now).stage7 true) :=
  Rtk.tableOnly_trans (Rtk.tableOnly_fold (Rtk.closeGap_tableOnly now) _ k) rfl

end Sys2Proof.Machine
end

section
/-!
PROOF. The heads beside the records: handing an outcome over (R138) and writing a head do not meet, so that what an entry's decision,
a cancelled queue and a disabled head come to is one write of the head behind the outcomes handed over.
-/

namespace Sys2Proof.Machine

section
variable (n : Fin 4) (h : Head) (d : Device)

theorem Device.placeReport_setHead (f : Frame) : (d.setHead n h).placeReport f = (d.placeReport f).setHead n h := by
  have written (x : Device) (hev : x.hev = d.hev) (sth : x.sth = d.sth) :
      x.setHead n h = x.withStamps d.hev { d.sth with heads := d.sth.heads.set n h } := by
    rw [Device.setHead, Device.withStamps, sth, ← hev]
  rw [written d rfl rfl, written _ (Device.placeReport_touches f d .hev (by decide))
    (Device.placeReport_touches f d .sth (by decide)), Device.withStamps_placeReport]

theorem Device.askHidePlace_setHead (slot : Nat) : (d.setHead n h).askHidePlace slot = (d.askHidePlace slot).setHead n h := by
  unfold Device.askHidePlace Device.reportHide
  rw [show (d.setHead n h).record slot = d.record slot from rfl, show (d.setHead n h).reportRoom = d.reportRoom from rfl]
  split
  · split
    · rw [Device.placeReport_setHead]
      rfl
    · rfl
  · rfl

theorem Device.dispose_setHead (slot : Nat) (outcome : Disposition) :
    (d.setHead n h).dispose slot outcome = (d.dispose slot outcome).setHead n h := by
  unfold Device.dispose
  rw [show (d.setHead n h).record slot = d.record slot from rfl]
  split
  · exact Device.askHidePlace_setHead n h (d.setRecord slot _) slot
  · rfl

end

/-- The outcomes of entries handed over one after another, the heads apart (R138). -/
def Device.disposeAll (outcome : Disposition) (entries : List StampEntry) (d : Device) : Device :=
  entries.foldl (fun d e => d.dispose e.slot outcome) d

theorem Device.disposeAll_touches (outcome : Disposition) (entries : List StampEntry) (d : Device) :
    Touches [.hev, .rtk, .lnk, .dec] d (d.disposeAll outcome entries) :=
  Touches.fold (fun d (e : StampEntry) => Device.dispose_touches e.slot outcome d) entries d

theorem Device.head_of_sth {d e : Device} (same : e.sth = d.sth) (n : Fin 4) : e.head n = d.head n := by
  rw [Device.head, Device.head, same]

theorem Device.dispose_sth (slot : Nat) (outcome : Disposition) (d : Device) : (d.dispose slot outcome).sth = d.sth :=
  Device.dispose_touches slot outcome d .sth (by decide)

theorem Device.disposeAll_sth (outcome : Disposition) (entries : List StampEntry) (d : Device) :
    (d.disposeAll outcome entries).sth = d.sth := Device.disposeAll_touches outcome entries d .sth (by decide)

theorem Device.head_setHead_of_lt {n : Fin 4} {h : Head} {d : Device} (present : n.val < d.sth.heads.length) :
    (d.setHead n h).head n = h := by simp [Device.head, present]

/-- A head that is not there is not written. -/
theorem Device.setHead_of_le {n : Fin 4} {h : Head} {d : Device} (absent : d.sth.heads.length ≤ n.val) : d.setHead n h = d := by
  simp [Device.setHead, List.set_eq_of_length_le absent]

theorem Device.head_of_le {n : Fin 4} {d : Device} (absent : d.sth.heads.length ≤ n.val) : d.head n = Head.reset := by
  simp [Device.head, List.getElem?_eq_none absent]

theorem Device.setHead_congr {n : Fin 4} {h k : Head} {d : Device} (same : n.val < d.sth.heads.length → h = k) :
    d.setHead n h = d.setHead n k := by
  by_cases present : n.val < d.sth.heads.length
  · rw [same present]
  · rw [Device.setHead_of_le (Nat.not_lt.1 present), Device.setHead_of_le (Nat.not_lt.1 present)]

theorem Device.decideEntry_eq (n : Fin 4) (e : StampEntry) (outcome : Disposition) (d : Device) :
    d.decideEntry n e outcome =
      (d.dispose e.slot outcome).setHead n { d.head n with queue := (d.head n).queue.filter fun x => x.fire != e.fire } :=
  Device.dispose_setHead n _ d e.slot outcome

/-- An entry decided at a head just written. -/
theorem Device.decideEntry_setHead {n : Fin 4} {h : Head} {d : Device} (e : StampEntry) (outcome : Disposition) :
    (d.setHead n h).decideEntry n e outcome =
      (d.dispose e.slot outcome).setHead n { h with queue := h.queue.filter fun x => x.fire != e.fire } := by
  rw [Device.decideEntry_eq, Device.dispose_setHead, Device.setHead_setHead]
  refine Device.setHead_congr fun present => ?_
  rw [Device.dispose_sth] at present
  rw [Device.head_setHead_of_lt present]

theorem Device.decideEntries_setHead (n : Fin 4) (outcome : Disposition) (entries : List StampEntry) (h : Head) (d : Device) :
    entries.foldl (fun d e => d.decideEntry n e outcome) (d.setHead n h) =
      (d.disposeAll outcome entries).setHead n
        { h with queue := h.queue.filter fun x => entries.all fun e => x.fire != e.fire } := by
  induction entries generalizing h d with
  | nil => simp [Device.disposeAll]
  | cons e rest ih =>
    rw [List.foldl_cons, Device.decideEntry_setHead, ih]
    simp only [List.filter_filter, List.all_cons, Bool.and_comm]
    rfl

/-- A queue cancelled at a head just written: every outcome is handed over, and the queue is empty. -/
theorem Device.cancelQueue_setHead (n : Fin 4) (h : Head) (d : Device) (present : n.val < d.sth.heads.length) :
    (d.setHead n h).cancelQueue n = (d.disposeAll .cancelled h.queue).setHead n { h with queue := [] } := by
  unfold Device.cancelQueue
  rw [Device.head_setHead_of_lt present, Device.decideEntries_setHead]
  congr 2
  simp only [List.filter_eq_nil_iff, List.all_eq_true, not_forall]
  exact fun x hx => ⟨x, hx, by simp⟩

/-- The head as it is disabled (R134). -/
def Head.off (h : Head) : Head :=
  { h with state := .disabled, queue := [], timer := none, retryUsed := false, disablePending := false }

theorem Device.disableHead_setHead {n : Fin 4} {h : Head} {d : Device} (present : n.val < d.sth.heads.length) :
    (d.setHead n h).disableHead n = (d.disposeAll .cancelled h.queue).setHead n h.off := by
  unfold Device.disableHead
  dsimp only
  rw [Device.head_setHead_of_lt present, Device.setHead_setHead, Device.cancelQueue_setHead n _ d present,
    Device.setHead_setHead, Device.head_setHead_of_lt (by rwa [Device.disposeAll_sth])]
  rfl

theorem Device.disableHead_eq {n : Fin 4} {d : Device} (present : n.val < d.sth.heads.length) :
    d.disableHead n = (d.disposeAll .cancelled (d.head n).queue).setHead n (d.head n).off := by
  have off := Device.disableHead_setHead (h := d.head n) present
  rwa [Device.setHead_head] at off

end Sys2Proof.Machine
end

section
/-!
PROOF. Every operation of the model is one of what a command can do (Device.Runs): one lemma an operation, in the order of the model.
-/

namespace Sys2Proof.Machine

variable {a replies : Bool}

/-! ### The link, the records and the packs -/

theorem Device.counters_runs (bad forward upstream loads : Nat) (d : Device) :
    Device.Runs a replies d { d with lnk := { d.lnk with
      badFrames := bad, forwardDrops := forward, upstreamDrops := upstream, incompleteLoads := loads } } :=
  .link (.counters bad forward upstream loads)

theorem Device.placeReport_runs (f : Frame) (d : Device) : Device.Runs a replies d (d.placeReport f) := .link (.report f)

theorem Device.discardFrame_runs (d : Device) : Device.Runs a replies d d.discardFrame :=
  (Device.counters_runs _ d.lnk.forwardDrops d.lnk.upstreamDrops d.lnk.incompleteLoads d).trans (.raise _ _)

theorem Device.countAbandoned_runs (d : Device) : Device.Runs a replies d d.countAbandoned :=
  (Device.counters_runs d.lnk.badFrames d.lnk.forwardDrops d.lnk.upstreamDrops _ d).trans (.raise _ _)

theorem Device.forwardDown_runs (f : Frame) (d : Device) : Device.Runs a replies d (d.forwardDown f) := by
  unfold Device.forwardDown
  split
  · exact .link (.forwarded f ‹_›)
  · exact (Device.counters_runs d.lnk.badFrames _ d.lnk.upstreamDrops d.lnk.incompleteLoads d).trans (.raise _ _)

theorem Device.forwardUp_runs (f : Frame) (d : Device) : Device.Runs a replies d (d.forwardUp f) := by
  unfold Device.forwardUp
  split
  · rename_i room
    split
    · rename_i g rest idle joined
      refine .link (.upstream fun _ settled => ⟨?_, fun none => nomatch none⟩)
      rw [settled idle, List.nil_append, List.cons.injEq] at joined
      simp [← joined.2]
    · rename_i none
      refine .link (.upstream fun _ _ => ⟨?_, fun idle => ?_⟩)
      · rw [List.length_append]
        exact room
      · cases joined : d.lnk.upFifo ++ [f] with
        | nil => simp at joined
        | cons g rest => exact absurd joined (none g rest idle)
  · exact (Device.counters_runs d.lnk.badFrames d.lnk.forwardDrops _ d.lnk.incompleteLoads d).trans (.raise _ _)

theorem Device.endUpFrame_runs (d : Device) : Device.Runs a replies d d.endUpFrame := by
  unfold Device.endUpFrame
  split
  · exact .refl d
  · split
    · rename_i f rest held
      refine .link (.upstream fun bound _ => ⟨?_, fun none => nomatch none⟩)
      rw [held] at bound
      exact Nat.le_of_succ_le bound
    · rename_i held
      exact .link (.upstream (tx := none) (fifo := d.lnk.upFifo) fun bound _ => ⟨bound, fun _ => held⟩)

theorem Device.owe_runs (kind : Byte) {d : Device} (full : d.noReplyPlace = true) : Device.Runs a replies d (d.owe kind) := by
  unfold Device.owe
  split
  · exact .link (.owed kind ‹_› full)
  · exact .raise _ d

theorem Device.setSlot_runs (n : Fin 4) (p : PackSlot) (d : Device) : Device.Runs a replies d (d.setSlot n p) :=
  .packs fun four => List.length_set.trans four

theorem Device.askPackPlace_runs (n : Fin 4) (d : Device) : Device.Runs a replies d (d.askPackPlace n) := by
  unfold Device.askPackPlace
  repeat' split
  · exact (Device.setSlot_runs _ _ d).trans (Device.placeReport_runs _ _)
  all_goals exact .refl d

theorem Device.closePack_runs (n : Fin 4) (flags : CloseFlags) (d : Device) : Device.Runs a replies d (d.closePack n flags) := by
  unfold Device.closePack
  split
  · exact (Device.setSlot_runs _ _ d).trans (Device.askPackPlace_runs _ _)
  · exact .refl d

theorem Device.reportPack_runs (n : Fin 4) (d : Device) : Device.Runs a replies d (d.reportPack n) := by
  have placed (s f) : Device.Runs a replies d ((d.setSlot n s).placeReport f) :=
    (Device.setSlot_runs n s d).trans (Device.placeReport_runs f _)
  unfold Device.reportPack
  dsimp only
  repeat' split
  · exact .refl d
  · exact placed _ _
  · exact placed _ _
  all_goals exact (placed _ _).trans (Device.closePack_runs _ _ _)

theorem Device.closeAtTarget_runs (n : Fin 4) (d : Device) : Device.Runs a replies d (d.closeAtTarget n) := by
  unfold Device.closeAtTarget
  repeat' split
  · exact .refl d
  · exact Device.closePack_runs _ _ d
  · exact .refl d

theorem Device.feedPack_runs (n : Fin 4) (f : PackFeed) (d : Device) : Device.Runs a replies d (d.feedPack n f) := by
  unfold Device.feedPack
  split
  · refine ((Device.setSlot_runs n _ d).trans (.packs ?_)).trans (Device.closeAtTarget_runs n _)
    exact id
  · exact (Device.setSlot_runs _ _ d).trans (Device.closeAtTarget_runs _ _)

theorem Device.setRecord_runs (slot : Nat) (r : Option HideRecord) (d : Device) : Device.Runs a replies d (d.setRecord slot r) :=
  .evaluator fun sized => ⟨List.length_set.trans sized.1, sized.2⟩

/-- The tracker is told of a place freed in the record store (R92). -/
theorem Device.retryPending_runs (retry : Bool) (d : Device) :
    Device.Runs a replies d { d with rtk := { d.rtk with retryPending := retry } } := .tracker (.table rfl rfl id)

theorem Device.reportHide_runs (slot : Nat) (r : HideRecord) (d : Device) : Device.Runs a replies d (d.reportHide slot r) :=
  ((Device.placeReport_runs _ d).trans (Device.setRecord_runs slot none _)).trans (Device.retryPending_runs true _)

theorem Device.askHidePlace_runs (slot : Nat) (d : Device) : Device.Runs a replies d (d.askHidePlace slot) := by
  unfold Device.askHidePlace
  repeat' split
  · exact Device.reportHide_runs _ _ d
  all_goals exact .refl d

theorem Device.dispose_runs (slot : Nat) (outcome : Disposition) (d : Device) : Device.Runs a replies d (d.dispose slot outcome) := by
  unfold Device.dispose
  split
  · exact (Device.setRecord_runs _ _ d).trans (Device.askHidePlace_runs _ _)
  · exact .refl d

theorem Device.disposeAll_runs (outcome : Disposition) (entries : List StampEntry) (d : Device) :
    Device.Runs a replies d (d.disposeAll outcome entries) := .fold (fun d (e : StampEntry) => Device.dispose_runs e.slot outcome d) entries d

theorem Device.offerReportPlace_runs (d : Device) : Device.Runs a replies d d.offerReportPlace := by
  unfold Device.offerReportPlace
  repeat' split
  · exact Device.reportHide_runs _ _ d
  · exact Device.reportPack_runs _ d
  · exact .refl d

theorem Lct.latchesAfterReport_moves (l : Lct) : l.Moves { l with latches := l.latchesAfterReport } :=
  ⟨id, id, id, rfl, by simp [Lct.latchesAfterReport], rfl⟩

theorem Device.askEventPlace_runs (d : Device) : Device.Runs a replies d d.askEventPlace := by
  unfold Device.askEventPlace
  split
  · exact (Device.Runs.control d.lct.latchesAfterReport_moves).trans (Device.placeReport_runs _ _)
  · exact .refl d

theorem Device.endDownFrame_runs (d : Device) : Device.Runs a replies d d.endDownFrame := by
  unfold Device.endDownFrame
  repeat' split
  · exact .refl d
  · exact (Device.Runs.link .sent).trans (Device.offerReportPlace_runs _)
  · exact .link .sent

/-! ### The heads -/

theorem Device.setHead_runs {n : Fin 4} {h : Head} {d : Device} (strike : (d.head n).strikeInStriking → h.strikeInStriking)
    (queue : QueueMoves a d.sth.spacingsLegal (d.head n).queue h.queue) : Device.Runs a replies d (d.setHead n h) :=
  .heads (.head n strike queue)

/-- A head written but for its queue. -/
theorem Device.setHead_sameQueue_runs {n : Fin 4} {h : Head} {d : Device}
    (strike : (d.head n).strikeInStriking → h.strikeInStriking) (same : h.queue = (d.head n).queue) :
    Device.Runs a replies d (d.setHead n h) := Device.setHead_runs strike (same ▸ .same)

/-- A head that has a front entry, or needs none, and whose strike line is low goes to a state other than STRIKING. -/
theorem Head.strikeInStriking_of_low {h : Head} (low : h.strikeHigh = false) (state : h.state ≠ .striking)
    (room : h.queue.length ≤ 8) (front : h.state.committed = true → h.queue ≠ []) : h.strikeInStriking :=
  ⟨by simp [low, state], room, front⟩

theorem Head.strikeInStriking.low {h : Head} (strike : h.strikeInStriking) (state : h.state ≠ .striking) : h.strikeHigh = false := by
  simpa using fun high => state (strike.1.1 high)

theorem Head.strikeInStriking.room {h : Head} (strike : h.strikeInStriking) : h.queue.length ≤ 8 := strike.2.1

theorem Device.startSetting_runs (n : Fin 4) (atTick : Bool) (d : Device) : Device.Runs a replies d (d.startSetting n atTick) := by
  unfold Device.startSetting
  dsimp only
  split
  · exact .refl d
  · rename_i e rest queue
    split
    · rename_i ready
      simp only [Bool.and_eq_true, decide_eq_true_eq] at ready
      refine Device.setHead_sameQueue_runs (fun strike => ?_) rfl
      exact Head.strikeInStriking_of_low (strike.low (by simp [ready.1])) HeadState.noConfusion strike.room
        fun _ => by simp [queue]
    · exact .refl d

/-- An entry decided at a head whose front entry stays while it is committed. -/
theorem Device.decideEntry_runs {n : Fin 4} {e : StampEntry} {d : Device} (outcome : Disposition)
    (front : (d.head n).state.committed = true → ∃ x ∈ (d.head n).queue, x.fire ≠ e.fire) :
    Device.Runs false replies d (d.decideEntry n e outcome) := by
  rw [Device.decideEntry_eq]
  have same := Device.head_of_sth (d.dispose_sth e.slot outcome) n
  refine (Device.dispose_runs e.slot outcome d).trans (Device.setHead_runs (fun strike => ?_) ?_)
  · rw [same] at strike
    refine ⟨strike.1, (List.length_filter_le _ _).trans strike.room, fun committed => ?_⟩
    obtain ⟨x, hx, other⟩ := front committed
    exact List.ne_nil_of_mem (List.mem_filter.2 ⟨hx, by simpa using other⟩)
  · rw [same]
    exact .fewer List.filter_sublist rfl

/-- A head written and one of its entries decided. -/
theorem Device.setHead_decideEntry_runs {n : Fin 4} {h : Head} {e : StampEntry} {d : Device} (outcome : Disposition)
    (strike : (d.head n).strikeInStriking → h.strikeInStriking) (same : h.queue = (d.head n).queue)
    (free : h.state.committed = false) : Device.Runs false replies d ((d.setHead n h).decideEntry n e outcome) := by
  refine (Device.setHead_sameQueue_runs strike same).trans (Device.decideEntry_runs outcome fun committed => ?_)
  by_cases present : n.val < d.sth.heads.length
  · rw [Device.head_setHead_of_lt present, free] at committed
    cases committed
  · rw [Device.setHead_of_le (Nat.not_lt.1 present), Device.head_of_le (Nat.not_lt.1 present)] at committed
    cases committed

theorem Head.off_strikeInStriking {h : Head} (low : h.strikeHigh = false) : h.off.strikeInStriking :=
  Head.strikeInStriking_of_low low HeadState.noConfusion (Nat.zero_le _) fun committed => nomatch committed

theorem Device.disableHead_runs {n : Fin 4} {d : Device} (state : (d.head n).state ≠ .striking)
    (present : n.val < d.sth.heads.length) : Device.Runs a replies d (d.disableHead n) := by
  rw [Device.disableHead_eq present]
  have same := Device.head_of_sth (d.disposeAll_sth .cancelled (d.head n).queue) n
  refine (Device.disposeAll_runs _ _ d).trans (Device.setHead_runs (fun strike => ?_) .cleared)
  rw [same] at strike
  exact Head.off_strikeInStriking (strike.low state)

/-- A head that does anything is there. -/
theorem Device.present_of_state {n : Fin 4} {d : Device} (state : (d.head n).state ≠ .disabled) : n.val < d.sth.heads.length := by
  by_contra absent
  rw [Device.head_of_le (Nat.not_lt.1 absent)] at state
  exact state rfl

theorem Device.headOff_runs (n : Fin 4) (d : Device) : Device.Runs a replies d (d.headOff n) := by
  unfold Device.headOff
  dsimp only
  cases state : (d.head n).state with
  | disabled => exact .refl d
  | striking =>
    exact Device.setHead_sameQueue_runs
      (fun strike => ⟨by simpa [state] using strike.1, strike.room, fun _ => strike.2.2 (by simp [state, HeadState.committed])⟩) rfl
  | idle | setting | ready | recovering | stalled =>
    exact Device.disableHead_runs (n := n) (by simp [state]) (Device.present_of_state (n := n) (by simp [state]))

/-- A head that is not STRIKING becomes IDLE. -/
theorem Head.strikeInStriking.idle {h g : Head} (strike : h.strikeInStriking) (state : h.state ≠ .striking) (idle : g.state = .idle)
    (line : g.strikeHigh = h.strikeHigh) (same : g.queue = h.queue) : g.strikeInStriking :=
  Head.strikeInStriking_of_low (line.trans (strike.low state)) (by simp [idle]) (same ▸ strike.room)
    fun committed => by rw [idle] at committed; cases committed

theorem Device.setHead_idle_runs {n : Fin 4} {h : Head} {d : Device} (state : (d.head n).state ≠ .striking)
    (idle : h.state = .idle) (line : h.strikeHigh = (d.head n).strikeHigh) (same : h.queue = (d.head n).queue) :
    Device.Runs a replies d (d.setHead n h) := Device.setHead_sameQueue_runs (fun strike => strike.idle state idle line same) same

theorem Device.headOn_runs (n : Fin 4) (d : Device) : Device.Runs a replies d (d.headOn n) := by
  unfold Device.headOn
  dsimp only
  split
  · rename_i off
    exact Device.setHead_idle_runs (by simp [off]) rfl rfl rfl
  · split
    · exact Device.setHead_sameQueue_runs id rfl
    · exact .refl d

theorem Device.clearStall_runs (n : Fin 4) (d : Device) : Device.Runs a replies d (d.clearStall n) := by
  unfold Device.clearStall
  dsimp only
  split
  · rename_i stalled
    refine .trans ?_ (Device.startSetting_runs n false _)
    exact Device.setHead_idle_runs (by simp [stalled]) rfl rfl rfl
  · exact .refl d

theorem Device.takeReadback_runs (n : Fin 4) (w : Word32) (d : Device) : Device.Runs a replies d (d.takeReadback n w) := by
  have kept : Device.Runs a replies d (d.setHead n { d.head n with lastReadback := some w }) := Device.setHead_sameQueue_runs id rfl
  unfold Device.takeReadback
  dsimp only
  split
  · exact kept.trans (.raise _ _)
  · exact kept

theorem Device.takeReadback_head {n : Fin 4} {d : Device} (w : Word32) (present : n.val < d.sth.heads.length) :
    (d.takeReadback n w).head n = { d.head n with lastReadback := some w } := by
  unfold Device.takeReadback
  dsimp only
  split <;> exact Device.head_setHead_of_lt present

theorem Device.stall_runs {n : Fin 4} (e : StampEntry) {d : Device} (state : (d.head n).state ≠ .striking) :
    Device.Runs false replies d (d.stall n e) := by
  have stalled : Device.Runs false replies d (d.setHead n { d.head n with state := .stalled, timer := none, retryUsed := false }) :=
    Device.setHead_sameQueue_runs
      (fun strike => Head.strikeInStriking_of_low (strike.low state) HeadState.noConfusion strike.room fun c => nomatch c) rfl
  refine (stalled.trans (.raise (.headStall n) _)).trans (Device.decideEntry_runs _ fun committed => ?_)
  change ((d.setHead n _).head n).state.committed = true at committed
  by_cases present : n.val < d.sth.heads.length
  · rw [Device.head_setHead_of_lt present] at committed
    cases committed
  · rw [Device.setHead_of_le (Nat.not_lt.1 present), Device.head_of_le (Nat.not_lt.1 present)] at committed
    cases committed

theorem Device.verify_runs {n : Fin 4} (e : StampEntry) (w : Word32) {d : Device} (state : (d.head n).state = .setting) :
    Device.Runs false replies d (d.verify n e w) := by
  have calm : (d.head n).state ≠ .striking := by simp [state]
  unfold Device.verify
  dsimp only
  split
  · exact Device.stall_runs e calm
  · split
    · exact Device.setHead_sameQueue_runs
        (fun strike => Head.strikeInStriking_of_low (strike.low calm) HeadState.noConfusion strike.room
          fun _ => strike.2.2 (by simp [state, HeadState.committed])) rfl
    · split
      · exact Device.stall_runs e calm
      · exact Device.setHead_sameQueue_runs id rfl

theorem Device.setTimeExpiry_runs (n : Fin 4) (w : Word32) (d : Device) : Device.Runs false replies d (d.setTimeExpiry n w) := by
  unfold Device.setTimeExpiry
  dsimp only
  split
  · split
    · rename_i due
      simp only [Bool.and_eq_true, decide_eq_true_eq] at due
      have present := Device.present_of_state (d := d) (n := n) (by simp [due.1])
      exact (Device.takeReadback_runs n w d).trans
        (Device.verify_runs _ w (by rw [Device.takeReadback_head w present]; exact due.1))
    · exact .refl d
  · exact .refl d

theorem Device.endRecovery_runs {n : Fin 4} {d : Device} (state : (d.head n).state ≠ .striking) :
    Device.Runs a replies d (d.endRecovery n) := by
  refine .trans ?_ (Device.startSetting_runs n true _)
  exact Device.setHead_idle_runs state rfl rfl rfl

theorem Device.recoverTimeExpiry_runs (n : Fin 4) (d : Device) : Device.Runs a replies d (d.recoverTimeExpiry n) := by
  unfold Device.recoverTimeExpiry
  split
  · rename_i due
    simp only [Bool.and_eq_true, decide_eq_true_eq] at due
    exact Device.endRecovery_runs (by simp [due.1])
  · exact .refl d

/-- A head written, with its strike line low and in a state that needs no front entry, and its queue shortened. -/
theorem Device.setHead_low_runs {n : Fin 4} {h : Head} {d : Device} (low : h.strikeHigh = false)
    (free : h.state.committed = false) (fewer : h.queue.Sublist (d.head n).queue) : Device.Runs false replies d (d.setHead n h) :=
  Device.setHead_runs
    (fun strike => Head.strikeInStriking_of_low low (fun striking => by rw [striking] at free; cases free)
      (fewer.length_le.trans strike.room) fun committed => by rw [free] at committed; cases committed)
    (.fewer fewer rfl)

/-- An outcome handed over and the head of its entry written with its strike line low. -/
theorem Device.dispose_setHead_low_runs {n : Fin 4} {h : Head} {d : Device} (slot : Nat) (outcome : Disposition)
    (low : h.strikeHigh = false) (free : h.state.committed = false) (fewer : h.queue.Sublist (d.head n).queue) :
    Device.Runs false replies d ((d.dispose slot outcome).setHead n h) :=
  (Device.dispose_runs slot outcome d).trans
    (Device.setHead_low_runs low free (by rwa [Device.head_of_sth (d.dispose_sth slot outcome)]))

theorem Device.strikeTimeExpiry_runs (n : Fin 4) (d : Device) : Device.Runs false replies d (d.strikeTimeExpiry n) := by
  unfold Device.strikeTimeExpiry
  dsimp only
  split
  · rename_i e rest queue
    split
    · rename_i due
      simp only [Bool.and_eq_true, decide_eq_true_eq] at due
      have present := Device.present_of_state (d := d) (n := n) (by simp [due.1])
      rw [Device.decideEntry_setHead]
      have present' : n.val < (d.dispose e.slot .stamped).sth.heads.length := by rwa [Device.dispose_sth]
      split
      · rw [Device.disableHead_setHead present']
        refine ((Device.dispose_runs e.slot .stamped d).trans (Device.disposeAll_runs _ _ _)).trans
          (Device.setHead_runs (fun _ => Head.off_strikeInStriking rfl) .cleared)
      · unfold Device.startRecovery Device.endRecovery
        dsimp only
        rw [Device.head_setHead_of_lt present', Device.setHead_setHead, Device.setHead_setHead]
        split
        · exact (Device.dispose_setHead_low_runs _ _ rfl rfl List.filter_sublist).trans (Device.startSetting_runs _ _ _)
        · exact Device.dispose_setHead_low_runs _ _ rfl rfl List.filter_sublist
    · exact .refl d
  · exact .refl d

theorem Device.strike_runs {n : Fin 4} {d : Device} (state : (d.head n).state = .ready) : Device.Runs a replies d (d.strike n) :=
  Device.setHead_sameQueue_runs
    (fun strike => ⟨by simp, strike.room, fun _ => strike.2.2 (by simp [state, HeadState.committed])⟩) rfl

/-- A crossed entry that is not the front one of a committed head. -/
theorem Device.missLate_runs {n : Fin 4} {e : StampEntry} {front : Bool} {d : Device}
    (state : (d.head n).state = .setting ∨ (d.head n).state.committed = false ∨ front = false)
    (other : front = false → (d.head n).state.committed = true → ∃ x ∈ (d.head n).queue, x.fire ≠ e.fire) :
    Device.Runs false replies d (d.missLate n e front) := by
  unfold Device.missLate
  dsimp only
  split
  · rename_i abandoned
    simp only [Bool.and_eq_true, decide_eq_true_eq] at abandoned
    refine .trans ?_ (Device.startSetting_runs n false _)
    exact Device.setHead_decideEntry_runs _ (fun strike => strike.idle (by simp [abandoned.1]) rfl rfl rfl) rfl rfl
  · rename_i kept
    refine (Device.decideEntry_runs _ fun committed => ?_).trans (Device.startSetting_runs _ _ _)
    cases front with
    | false => exact other rfl committed
    | true =>
      rcases state with setting | free | front
      · exact absurd (by simp [setting]) kept
      · rw [free] at committed
        cases committed
      · cases front

/-- The fire position of the front entry of a head, beside another. -/
def Head.frontAt (h : Head) (fire : Position) : Bool := match h.queue with | f :: _ => f.fire == fire | [] => false

theorem Device.cross_runs (n : Fin 4) (d : Device) : Device.Runs false replies d (d.cross n) := by
  unfold Device.cross
  cases crossed : d.crossedEntry n with
  | none => exact .refl d
  | some e =>
    have member : e ∈ (d.head n).queue := List.mem_of_find?_eq_some crossed
    show Device.Runs false replies d (match (d.head n).state with
      | .stalled => d.decideEntry n e .missedStalled
      | .ready => if (d.head n).frontAt e.fire then d.strike n else d.missLate n e false
      | .striking => if (d.head n).frontAt e.fire then d else d.missLate n e false
      | .disabled | .idle | .setting | .recovering => d.missLate n e ((d.head n).frontAt e.fire))
    have other (behind : (d.head n).frontAt e.fire = false) : ∃ x ∈ (d.head n).queue, x.fire ≠ e.fire := by
      cases queue : (d.head n).queue with
      | nil => simp [queue] at member
      | cons f rest =>
        rw [Head.frontAt, queue] at behind
        exact ⟨f, List.mem_cons_self, by simpa using behind⟩
    cases state : (d.head n).state with
    | stalled => exact Device.decideEntry_runs _ fun committed => by simp [state, HeadState.committed] at committed
    | ready =>
      dsimp only
      split
      · exact Device.strike_runs state
      · exact Device.missLate_runs (.inr (.inr rfl)) fun _ _ => other (Bool.eq_false_iff.2 ‹_›)
    | striking =>
      dsimp only
      split
      · exact .refl d
      · exact Device.missLate_runs (.inr (.inr rfl)) fun _ _ => other (Bool.eq_false_iff.2 ‹_›)
    | setting => exact Device.missLate_runs (.inl state) fun behind _ => other behind
    | disabled | idle | recovering =>
      exact Device.missLate_runs (.inr (.inl (by simp [state, HeadState.committed]))) fun behind _ => other behind

theorem Device.eachHead_runs {act : Fin 4 → Device → Device} (h : ∀ n d, Device.Runs a replies d (act n d)) (l : List (Fin 4)) (d : Device) :
    Device.Runs a replies d (d.eachHead l act) :=
  (Device.Runs.fold (f := fun d n => act n d) (fun d n => h n d) (d.headOrder l) d).trans (.drawn _ _)

theorem Device.presentPosition_runs (p : Direction) (d : Device) : Device.Runs false replies d (d.presentPosition p) := by
  unfold Device.presentPosition
  repeat' split
  · exact .refl d
  · exact .refl d
  · exact Device.eachHead_runs Device.cross_runs _ d

theorem Device.faultHead_runs (n : Fin 4) (d : Device) : Device.Runs false replies d (d.faultHead n) := by
  unfold Device.faultHead
  dsimp only
  cases state : (d.head n).state with
  | setting | ready => exact Device.setHead_idle_runs (by simp [state]) rfl rfl rfl
  | striking =>
    have present := Device.present_of_state (d := d) (n := n) (by simp [state])
    cases queue : (d.head n).queue with
    | nil =>
      dsimp only
      split
      · rw [Device.disableHead_setHead present]
        exact (Device.disposeAll_runs _ _ d).trans (Device.setHead_runs (fun _ => Head.off_strikeInStriking rfl) .cleared)
      · exact Device.setHead_low_runs rfl rfl (by simp [queue])
    | cons e rest =>
      dsimp only
      rw [Device.decideEntry_setHead]
      split
      · rw [Device.disableHead_setHead (by rwa [Device.dispose_sth])]
        exact ((Device.dispose_runs _ _ d).trans (Device.disposeAll_runs _ _ _)).trans
          (Device.setHead_runs (fun _ => Head.off_strikeInStriking rfl) .cleared)
      · exact Device.dispose_setHead_low_runs _ _ rfl rfl (by simpa [queue] using List.filter_sublist)
  | disabled | idle | recovering | stalled => exact .refl d

theorem Device.faultHeads_runs (d : Device) : Device.Runs false replies d d.faultHeads := by
  have each (l : List (Fin 4)) : Device.Runs false replies d (l.foldl (fun d n => d.faultHead n) d) :=
    .fold (fun d n => Device.faultHead_runs n d) l d
  unfold Device.faultHeads
  dsimp only
  split
  · exact each _
  · exact (each _).trans (Device.eachHead_runs Device.faultHead_runs _ _)

theorem Device.resumeHeads_runs (d : Device) : Device.Runs a replies d d.resumeHeads :=
  .fold (fun d n => Device.startSetting_runs n false d) _ d

end Sys2Proof.Machine
end

section
/-!
PROOF. Every operation of the line control, the belt unit, the conditioner and the tracker is one of what a command can do
(Device.Runs), in the order of the model.
-/

namespace Sys2Proof.Machine

variable {a replies : Bool}

/-! ### What Device.Runs keeps of the line control and the conditioner -/

theorem Lcn.Moves.refl (c : Lcn) : c.Moves c := ⟨id, fun _ h => .inl h⟩

theorem Lcn.Moves.trans {c m n : Lcn} (h : c.Moves m) (g : m.Moves n) : c.Moves n :=
  ⟨g.bounds ∘ h.bounds, fun e he => (g.entries e he).elim (h.entries e) .inr⟩

theorem Device.LinkMoves.touches {d t : Device} (h : d.LinkMoves t) : Touches [.lnk, .dec] d t := by
  cases h with
  | receiver port r => exact (Device.setReceiver_touches port r d).weaken rfl
  | assembly x => exact (Device.setAssembly_touches x d).weaken rfl
  | counters => exact (Touches.of_lnk d _).weaken rfl
  | report f => exact Device.placeReport_touches f d
  | forwarded f _ => exact ((Touches.of_lnk d _).comp (Device.wakeTx_touches _)).weaken rfl
  | upstream _ => exact (Touches.of_lnk d _).weaken rfl
  | sent => exact Device.sendNext_touches d
  | owed _ _ _ => exact (Touches.of_dec d _).weaken rfl

theorem Device.placeReply_lct (message : List Byte) (d : Device) : (d.placeReply message).lct = d.lct :=
  Device.placeReply_touches message d .lct (by decide)

theorem Device.placeReply_lcn (message : List Byte) (d : Device) : (d.placeReply message).lcn = d.lcn :=
  Device.placeReply_touches message d .lcn (by decide)

theorem Device.Runs.lct_moves {d t : Device} (h : Device.Runs a replies d t) : d.lct.Moves t.lct := by
  induction h with
  | refl | belt | conditioner | tracker | evaluator | heads | packs | custody | drawn | waits => exact .refl _
  | trans _ _ first second => exact first.trans second
  | control h => exact h
  | link h =>
    rename_i d t
    have same : t.lct = d.lct := h.touches .lct (by decide)
    exact same ▸ .refl _
  | answered message _ _ ih => rwa [Device.placeReply_lct]
  | served message _ _ ih => rwa [Device.placeReply_lct]
  | lineOperation _ _ _ _ _ ih => exact ih

theorem Device.Runs.lcn_moves {d t : Device} (h : Device.Runs a replies d t) : d.lcn.Moves t.lcn := by
  induction h with
  | refl | belt | control | tracker | evaluator | heads | packs | custody | drawn | waits => exact .refl _
  | trans _ _ first second => exact first.trans second
  | conditioner h => exact h
  | link h =>
    rename_i d t
    have same : t.lcn = d.lcn := h.touches .lcn (by decide)
    exact same ▸ .refl _
  | answered message _ _ ih => rwa [Device.placeReply_lcn]
  | served message _ _ ih => rwa [Device.placeReply_lcn]
  | lineOperation _ _ _ _ _ ih => exact ih

/-! ### Changes of line state -/

theorem Device.belt_free_runs (pause : Timer) (left : Nat) (encA encB : Bool) (d : Device) :
    Device.Runs a replies d { d with bpu := { d.bpu with pauseTimer := pause, freeRunLeft := left, encA := encA, encB := encB } } :=
  .belt (.free pause left encA encB)

theorem Device.stopPauseIfEmpty_runs (d : Device) : Device.Runs a replies d d.stopPauseIfEmpty := by
  unfold Device.stopPauseIfEmpty
  split
  · exact Device.belt_free_runs none d.bpu.freeRunLeft d.bpu.encA d.bpu.encB d
  · exact .refl d

theorem Device.pauseLine_runs (cause : HaltCause) (atTick : Bool) (d : Device) : Device.Runs a replies d (d.pauseLine cause atTick) := by
  unfold Device.pauseLine
  split
  · exact (Device.belt_free_runs _ 0 d.bpu.encA d.bpu.encB d).trans (.control (d.lct.line_moves fun _ => LineState.noConfusion))
  · exact .refl d

theorem Device.runLine_runs (d : Device) : Device.Runs a replies d d.runLine :=
  (Device.belt_free_runs none d.bpu.freeRunLeft d.bpu.encA d.bpu.encB d).trans
    (.control (d.lct.line_moves fun _ => LineState.noConfusion))

theorem Device.faultLine_runs (atTick : Bool) (d : Device) : Device.Runs false replies d (d.faultLine atTick) := by
  have faulted (x : Device) : Device.Runs false replies x { x with lct := { x.lct with lineState := .faulted, haltCause := .estop } } :=
    .control (x.lct.line_moves fun _ => LineState.noConfusion)
  unfold Device.faultLine
  split
  · exact ((Device.belt_free_runs _ 0 d.bpu.encA d.bpu.encB d).trans (faulted _)).trans (Device.faultHeads_runs _)
  · exact (faulted d).trans (Device.faultHeads_runs _)
  · exact (faulted d).trans (Device.faultHeads_runs _)
  all_goals exact .refl d

theorem Device.leaveFault_runs (d : Device) : Device.Runs a replies d d.leaveFault :=
  (Device.Runs.control (d.lct.line_moves fun _ => LineState.noConfusion)).trans (Device.resumeHeads_runs _)

theorem Device.condition_runs (beltRun estop : Bool) (d : Device) :
    Device.Runs a replies d { d with lct := { d.lct with beltRun := beltRun, estop := estop } } := .control (d.lct.line_moves id)

theorem Device.beltEdge_runs (atTick : Bool) (d : Device) : Device.Runs a replies d (d.beltEdge atTick) := by
  have formed (x : Bool) (n : Latch) : Device.Runs a replies d (Device.raise { d with lct := { d.lct with beltRun := x } } n) :=
    (Device.condition_runs x d.lct.estop d).trans (.raise n _)
  unfold Device.beltEdge
  dsimp only
  repeat' split
  · exact .refl d
  · exact (formed _ _).trans (Device.runLine_runs _)
  · exact formed _ _
  · exact (formed _ _).trans (Device.pauseLine_runs _ _ _)

theorem Device.estopEdge_runs (atTick : Bool) (d : Device) : Device.Runs false replies d (d.estopEdge atTick) := by
  unfold Device.estopEdge
  dsimp only
  repeat' split
  · exact .refl d
  · exact ((Device.condition_runs d.lct.beltRun _ d).trans (Device.faultLine_runs _ _)).trans (.raise _ _)
  · refine (Device.condition_runs d.lct.beltRun d.lct.formEstop d).trans ?_
    exact .control (Lct.setLatch_moves { d.lct with estop := d.lct.formEstop } _ _)

theorem Device.setInput_runs (n : Fin 8) (i : InputLine) (d : Device) : Device.Runs a replies d (d.setInput n i) :=
  .control ⟨id, id, id, List.length_set, rfl, rfl⟩

theorem Device.eventInputEdge_runs (n : Fin 8) (d : Device) : Device.Runs a replies d (d.eventInputEdge n) := by
  unfold Device.eventInputEdge
  repeat' split
  · exact .raise _ d
  · exact .control (Lct.setLatch_moves _ _ _)
  · exact .refl d

theorem Device.debouncedEdge_runs (n : Fin 8) (atTick : Bool) (d : Device) : Device.Runs false replies d (d.debouncedEdge n atTick) := by
  unfold Device.debouncedEdge
  dsimp only
  repeat' split
  · exact Device.setInput_runs _ _ d
  · exact (Device.setInput_runs _ _ d).trans (Device.beltEdge_runs _ _)
  · exact (Device.setInput_runs _ _ d).trans (Device.estopEdge_runs _ _)
  · exact (Device.setInput_runs _ _ d).trans (Device.eventInputEdge_runs _ _)
  · exact Device.setInput_runs _ _ d

theorem Device.sampleInput_runs (n : Fin 8) (level : Bool) (d : Device) : Device.Runs false replies d (d.sampleInput n level) := by
  unfold Device.sampleInput
  dsimp only
  repeat' split
  · exact Device.setInput_runs _ _ d
  · exact Device.setInput_runs _ _ d
  · exact (Device.setInput_runs _ _ d).trans (Device.debouncedEdge_runs _ _ _)
  · exact Device.setInput_runs _ _ d

theorem Device.debounceExpiry_runs (n : Fin 8) (d : Device) : Device.Runs false replies d (d.debounceExpiry n) := by
  unfold Device.debounceExpiry
  split
  · exact Device.debouncedEdge_runs _ _ d
  · exact .refl d

theorem Lct.inputLatchAfterLoad_moves (l : Lct) (n : Fin 8) : l.Moves (l.inputLatchAfterLoad n) := by
  unfold Lct.inputLatchAfterLoad
  repeat' split
  · exact l.setLatch_moves _ _
  · exact .refl l
  · exact l.setLatch_moves _ _

theorem Lct.inputLatchesAfterLoad_moves (numbers : List (Fin 8)) (l : Lct) : l.Moves (numbers.foldl Lct.inputLatchAfterLoad l) := by
  induction numbers generalizing l with
  | nil => exact .refl l
  | cons n rest ih => exact (l.inputLatchAfterLoad_moves n).trans (ih _)

/-- The line control under a new table, before its conditions are formed (R168). -/
def Lct.tableTaken (l : Lct) (table : List InputEntry) : Lct :=
  inputNumbers.foldl Lct.inputLatchAfterLoad
    { l with table := table, inputs := l.inputs.map fun i => { i with debounced := i.raw, timer := none } }

theorem Device.takeInputsTable_eq (table : List InputEntry) (d : Device) :
    d.takeInputsTable table = Device.estopEdge false
      { d with lct := { d.lct.tableTaken table with beltRun := (d.lct.tableTaken table).formBeltRun } } := rfl

theorem Lct.tableTaken_moves {table : List InputEntry} (eight : table.length = 8) (l : Lct) : l.Moves (l.tableTaken table) := by
  have loaded : l.Moves { l with
      table := table, inputs := l.inputs.map fun i => { i with debounced := i.raw, timer := none } } :=
    ⟨id, id, fun _ => eight, List.length_map _, rfl, rfl⟩
  exact loaded.trans (Lct.inputLatchesAfterLoad_moves inputNumbers _)

theorem Device.takeInputsTable_runs {table : List InputEntry} (eight : table.length = 8) (d : Device) :
    Device.Runs false replies d (d.takeInputsTable table) := by
  rw [Device.takeInputsTable_eq]
  generalize d.lct.tableTaken table = l, Lct.tableTaken_moves eight d.lct = taken
  exact (Device.Runs.control (taken.trans (l.line_moves id))).trans (Device.estopEdge_runs false _)

/-! ### Missed lines and acceptance -/

theorem Device.lineLoss_runs (d : Device) : Device.Runs a replies d d.lineLoss :=
  (Device.Runs.raise .lineLoss d).trans (Device.pauseLine_runs _ _ _)

/-- The queue test may be due: overflow fills stand behind 255 trailing fills, and one entry will do for what the queue has room for. -/
def Lcn.fillsReady (c : Lcn) : Prop :=
  c.queue.length ≤ 4 ∧ c.trailing ≤ 255 ∧ (0 < c.overflow → c.trailing = 255 ∧ (3 ≤ c.queue.length ∨ c.overflow ≤ 256))

/-- The place of a FILL entry tested: the conditioner with the entry placed or as it was, and the line lost or not (R28). -/
theorem Device.placeFillEntry_cases (d : Device) : ∃ c : Lcn,
    (d.placeFillEntry = { d with lcn := c } ∨ d.placeFillEntry = Device.lineLoss { d with lcn := c }) ∧
      (∀ e ∈ c.queue, e ∈ d.lcn.queue ∨ e.content.runsApart) ∧ (d.lcn.fillsReady → c.queueInBounds) := by
  have four : queueCapacity = 4 := rfl
  unfold Device.placeFillEntry
  dsimp only
  split
  · rename_i due
    simp only [Bool.and_eq_true, decide_eq_true_eq] at due
    refine ⟨_, (ite_eq_or_eq _ _ _).symm, fun e he => ?_, fun ready => ?_⟩
    · rcases List.mem_append.1 he with old | new
      · exact .inl old
      · rw [List.mem_singleton.1 new]
        exact .inr trivial
    · obtain ⟨short, low, behind⟩ := ready
      obtain ⟨full, room⟩ := behind due.1
      refine ⟨?_, ?_, ?_⟩ <;> simp only [List.length_append, List.length_singleton] <;> omega
  · rename_i idle
    simp only [Bool.and_eq_true, decide_eq_true_eq, not_and, not_lt] at idle
    refine ⟨d.lcn, .inl rfl, fun e he => .inl he, fun ⟨short, low, behind⟩ => ⟨short, low, fun fills => ⟨(behind fills).1, ?_⟩⟩⟩
    have := idle fills
    omega

/-- The place of a FILL entry tested behind another change of the conditioner. -/
theorem Device.placeFillEntry_runs {c : Lcn} {d : Device} (entries : ∀ e ∈ c.queue, e ∈ d.lcn.queue ∨ e.content.runsApart)
    (ready : d.lcn.queueInBounds → c.fillsReady) : Device.Runs a replies d (Device.placeFillEntry { d with lcn := c }) := by
  obtain ⟨m, outcome, placed, bounds⟩ := Device.placeFillEntry_cases { d with lcn := c }
  have moved : Device.Runs a replies d { d with lcn := m } :=
    .conditioner ⟨bounds ∘ ready, fun e he => (placed e he).elim (entries e) .inr⟩
  rcases outcome with kept | lost
  · rw [kept]
    exact moved
  · rw [lost]
    exact moved.trans (Device.lineLoss_runs _)

/-- A change of the conditioner that keeps the queue, the trailing fills and the overflow fills. -/
theorem Lcn.Moves.of_same {c m : Lcn} (queue : m.queue = c.queue) (trailing : m.trailing = c.trailing)
    (overflow : m.overflow = c.overflow) : c.Moves m :=
  ⟨fun bounds => by rwa [Lcn.queueInBounds, queue, trailing, overflow], fun e he => .inl (queue ▸ he)⟩

theorem Device.declareMissed_runs (o : Outstanding) (d : Device) : Device.Runs a replies d (d.declareMissed o) := by
  have declared : Device.Runs a replies d
      (Device.raise { d with lcn := { d.lcn with missed := sat16 d.lcn.missed 1, lastDeclared := o } } .lineMissed) :=
    (Device.Runs.conditioner (c := { d.lcn with missed := sat16 d.lcn.missed 1, lastDeclared := o }) (.of_same rfl rfl rfl)).trans
      (.raise _ _)
  unfold Device.declareMissed
  dsimp only
  refine declared.trans ?_
  generalize Device.raise { d with lcn := { d.lcn with missed := sat16 d.lcn.missed 1, lastDeclared := o } } .lineMissed = e
  split
  · rename_i below
    have raised : Device.Runs a replies e { e with lcn := { e.lcn with trailing := e.lcn.trailing + 1 } } :=
      .conditioner ⟨fun ⟨short, _, behind⟩ => ⟨short, below, fun fills => absurd (behind fills).1 (Nat.ne_of_lt below)⟩,
        fun e he => .inl he⟩
    split
    · exact raised.trans (Device.lineLoss_runs _)
    · exact raised
  · rename_i top
    refine Device.placeFillEntry_runs (fun e he => .inl he) fun ⟨short, low, behind⟩ => ⟨short, low, fun _ => ⟨?_, ?_⟩⟩
    · show e.lcn.trailing = 255
      omega
    · show 3 ≤ e.lcn.queue.length ∨ moreOverflow e.lcn.overflow ≤ 256
      by_cases fills : 0 < e.lcn.overflow
      · exact .inl (by have := (behind fills).2; omega)
      · exact .inr (by simp [Nat.eq_zero_of_not_pos fills, moreOverflow])

theorem Device.declareMissed_outstanding (o : Outstanding) (d : Device) :
    (d.declareMissed o).bpu.outstanding = d.bpu.outstanding := by
  obtain ⟨belt, _, _⟩ := Device.declareMissed_belt o d
  rw [show _ = _ from belt]

theorem Device.declareMisseds_outstanding (l : List Outstanding) (d : Device) :
    (l.foldl (fun d o => d.declareMissed o) d).bpu.outstanding = d.bpu.outstanding := by
  induction l generalizing d with
  | nil => rfl
  | cons o l ih => rw [List.foldl_cons, ih, Device.declareMissed_outstanding]

theorem Device.declareMisseds_runs (l : List Outstanding) (d : Device) :
    Device.Runs a replies d (l.foldl (fun d o => d.declareMissed o) d) := .fold (fun d o => Device.declareMissed_runs o d) l d

theorem Device.retired_runs {l : List Outstanding} {d : Device} (newest : l <:+ d.bpu.outstanding) :
    Device.Runs a replies d { d with bpu := { d.bpu with outstanding := l } } := .belt (.retired newest)

theorem Device.presentLine_runs (n : Word32) (d : Device) : Device.Runs a replies d (d.presentLine n).2 := by
  unfold Device.presentLine
  split
  · exact .refl d
  · rename_i o newer found
    have newest : o :: newer <:+ d.bpu.outstanding := found ▸ List.dropWhile_suffix _
    refine (((Device.retired_runs newest).trans (Device.declareMisseds_runs _ _)).trans
      (Device.retired_runs ?_)).trans (Device.stopPauseIfEmpty_runs _)
    rw [Device.declareMisseds_outstanding]
    exact List.suffix_cons o newer

theorem Ccu.condition_runsApart (c : Ccu) (runs : List (Nat × Nat)) :
    spansApart ((c.condition runs).map fun r => (r.first, r.last)) := by
  have separated := bridgeRuns_separated c.bridge
    (runsOfRow_separated 0 (applyMask c.maskRow (if c.mirror then (rowOf cellCount runs).reverse else rowOf cellCount runs))).1
  have whole : (c.condition runs).map (fun r => (r.first, r.last)) =
      conditionRow c.mirror c.maskRow c.bridge c.speck (rowOf cellCount runs) := by
    rw [Ccu.condition, List.map_map]
    exact List.map_id _
  rw [whole]
  refine ⟨fun r kept => separated.1 r (List.mem_filter.1 kept).1, ?_⟩
  exact (separated.2.filter _).imp fun apart => by omega

end Sys2Proof.Machine
end

section
/-!
PROOF. Acceptance of LINE frames, pulses, triggers, evaluations and offers are of what a command can do (Device.Runs).
-/

namespace Sys2Proof.Machine

variable {a replies : Bool}

/-! ### Acceptance (R13, R21 to R25) -/

theorem Device.counted_runs {c : Lcn} {d : Device} (queue : c.queue = d.lcn.queue) (trailing : c.trailing = d.lcn.trailing)
    (overflow : c.overflow = d.lcn.overflow) : Device.Runs a replies d { d with lcn := c } :=
  .conditioner (.of_same queue trailing overflow)

theorem Device.queueLine_runs (n : Word32) (pos : Position) (status : BarStatus) {runs : List Run} (d : Device)
    (apart : spansApart (runs.map fun r => (r.first, r.last))) : Device.Runs a replies d (d.queueLine n pos status runs) := by
  have four : queueCapacity = 4 := rfl
  unfold Device.queueLine
  dsimp only
  split
  · rename_i room
    simp only [Bool.and_eq_true, decide_eq_true_eq] at room
    refine .conditioner ⟨fun bounds => ⟨?_, Nat.zero_le _, fun fills => ?_⟩, fun e he => ?_⟩
    · simp only [List.length_append, List.length_singleton]
      omega
    · exact absurd room.2 (Nat.ne_of_gt fills)
    · rcases List.mem_append.1 he with old | new
      · exact .inl old
      · rw [List.mem_singleton.1 new]
        exact .inr apart
  · exact Device.declareMissed_runs _ d

theorem Device.acceptOutstanding_runs (payload : List Byte) (pos : Position) (d : Device) :
    Device.Runs a replies d (d.acceptOutstanding payload pos) := by
  unfold Device.acceptOutstanding
  dsimp only
  repeat' split
  · exact (Device.counted_runs (c := { d.lcn with malformed := sat16 d.lcn.malformed 1 }) rfl rfl rfl).trans
      (Device.declareMissed_runs _ _)
  · exact Device.declareMissed_runs _ d
  · exact Device.declareMissed_runs _ d
  · exact Device.queueLine_runs _ _ _ d (d.ccu.condition_runsApart _)

theorem Device.strayLine_runs (d : Device) : Device.Runs a replies d d.strayLine := Device.counted_runs rfl rfl rfl

theorem Device.acceptLine_runs (payload : List Byte) (d : Device) : Device.Runs a replies d (d.acceptLine payload) := by
  have presented := Device.presentLine_runs (a := a) (replies := replies) (lineNumberOf payload) d
  unfold Device.acceptLine
  repeat' split
  · exact Device.strayLine_runs d
  · exact Device.counted_runs rfl rfl rfl
  · rename_i e found
    rw [found] at presented
    exact presented.trans (Device.strayLine_runs e)
  · rename_i pos e found
    rw [found] at presented
    exact presented.trans (Device.acceptOutstanding_runs payload pos e)

theorem Device.lineFrame_runs (source : Byte) (payload : List Byte) (d : Device) :
    Device.Runs a replies d (d.lineFrame source payload) := by
  unfold Device.lineFrame
  split
  · exact (Device.forwardDown_runs _ d).trans (Device.acceptLine_runs _ _)
  · exact Device.acceptLine_runs _ d

/-! ### Pulses and triggers (R1 to R14) -/

/-- The older of two outstanding lines retired as missed (R12). -/
def Device.retireOlder (d : Device) : Device :=
  match d.bpu.outstanding with
  | o :: p :: rest => { d with bpu := { d.bpu with outstanding := p :: rest } }.declareMissed o
  | _ => d

/-- The new line joined to the outstanding ones (R10). -/
def Bpu.triggered (load : Nat) (b : Bpu) : Bpu :=
  { b with
    outstanding := b.outstanding ++ [⟨b.nextLine, b.position⟩]
    nextLine := b.nextLine + 1
    divider := load
    triggerLine := false }

theorem Device.trigger_eq (d : Device) :
    d.trigger = { d.retireOlder with bpu := d.retireOlder.bpu.triggered d.retireOlder.ccu.dividerLoad } := rfl

theorem Device.retireOlder_touches (d : Device) : Touches [.lcn, .bpu, .lct] d d.retireOlder := by
  unfold Device.retireOlder
  split
  · exact ((Touches.of_bpu d _).comp (Device.declareMissed_touches _ _)).weaken rfl
  · exact Touches.refl _ d

theorem Device.retireOlder_belt (d : Device) :
    Bpu.sameBelt { d.bpu with outstanding := olderRetired d.bpu.outstanding } d.retireOlder.bpu := by
  unfold Device.retireOlder
  split
  · rename_i o p rest found
    rw [found]
    exact (Device.declareMissed_belt o _).1
  · rename_i few
    have same : olderRetired d.bpu.outstanding = d.bpu.outstanding := by
      unfold olderRetired
      split
      · rename_i o p rest found
        exact absurd found (few o p rest)
      · rfl
    rw [same]
    rfl

theorem Device.retireOlder_moves (d : Device) : d.lcn.Moves d.retireOlder.lcn ∧ d.lct.Moves d.retireOlder.lct := by
  unfold Device.retireOlder
  split
  · rename_i o p rest _
    have retired := Device.declareMissed_runs (a := true) (replies := true) o { d with bpu := { d.bpu with outstanding := p :: rest } }
    exact ⟨retired.lcn_moves, retired.lct_moves⟩
  · exact ⟨.refl _, .refl _⟩

/-- A device of which only the conditioner, the line control and the belt differ. -/
theorem Device.eq_of_touches_lines {d t : Device} (h : Touches [.lcn, .bpu, .lct] d t) :
    t = { d with bpu := t.bpu, lcn := t.lcn, lct := t.lct } := by
  have powered : t.powered = d.powered := h .powered (by decide)
  have rtk : t.rtk = d.rtk := h .rtk (by decide)
  have hev : t.hev = d.hev := h .hev (by decide)
  have sth : t.sth = d.sth := h .sth (by decide)
  have pku : t.pku = d.pku := h .pku (by decide)
  have ccu : t.ccu = d.ccu := h .ccu (by decide)
  have lnk : t.lnk = d.lnk := h .lnk (by decide)
  have dec : t.dec = d.dec := h .dec (by decide)
  have draws : t.draws = d.draws := h .draws (by decide)
  show Device.mk t.powered t.bpu t.lcn t.rtk t.hev t.sth t.pku t.lct t.ccu t.lnk t.dec t.draws = _
  rw [powered, rtk, hev, sth, pku, ccu, lnk, dec, draws]

/-- The older line is retired before the new one joins, so both are one change of the belt; the declaration then stops what runs. -/
theorem Device.trigger_runs (d : Device) : Device.Runs a replies d d.trigger := by
  have whole := Device.eq_of_touches_lines (Device.retireOlder_touches d)
  have belt : d.retireOlder.bpu = { d.bpu with
      outstanding := olderRetired d.bpu.outstanding
      pauseTimer := d.retireOlder.bpu.pauseTimer
      freeRunLeft := d.retireOlder.bpu.freeRunLeft } := Device.retireOlder_belt d
  obtain ⟨lines, control⟩ := Device.retireOlder_moves d
  rw [Device.trigger_eq]
  generalize d.retireOlder = e at whole belt lines control
  have joined : e.bpu.triggered e.ccu.dividerLoad = { d.bpu.triggered d.ccu.dividerLoad with
      outstanding := olderRetired d.bpu.outstanding ++ [⟨d.bpu.nextLine, d.bpu.position⟩]
      pauseTimer := e.bpu.pauseTimer, freeRunLeft := e.bpu.freeRunLeft } := by
    have load : e.ccu = d.ccu := by rw [whole]
    rw [load, belt]
    rfl
  rw [joined, whole]
  exact (((Device.Runs.belt .triggered).trans (.conditioner (c := e.lcn) lines)).trans (.control (l := e.lct) control)).trans
    (.belt (.free e.bpu.pauseTimer e.bpu.freeRunLeft d.bpu.encA d.bpu.encB))

theorem Device.countDivider_runs (d : Device) : Device.Runs a replies d d.countDivider := by
  unfold Device.countDivider
  split
  · exact Device.trigger_runs d
  · rename_i high
    exact .belt (.counted (Nat.lt_of_not_le high))

theorem Device.pulse_runs (direction : Direction) (d : Device) : Device.Runs false replies d (d.pulse direction) := by
  cases direction with
  | forward =>
    have moved : Device.Runs false replies d { d with bpu := d.bpu.forward } := .belt .forward
    unfold Device.pulse
    dsimp only
    split
    · exact (moved.trans (Device.countDivider_runs _)).trans (Device.presentPosition_runs _ _)
    · exact moved.trans (Device.presentPosition_runs _ _)
  | reverse =>
    unfold Device.pulse
    dsimp only
    split
    · exact ((Device.Runs.raise .reverse d).trans (.belt .backward)).trans (Device.presentPosition_runs _ _)
    · exact (Device.Runs.belt .backward).trans (Device.presentPosition_runs _ _)

theorem Device.encoderSample_runs (x y : Bool) (d : Device) : Device.Runs false replies d (d.encoderSample x y) := by
  have sampled : Device.Runs false replies d { d with bpu := { d.bpu with encA := x, encB := y } } :=
    Device.belt_free_runs d.bpu.pauseTimer d.bpu.freeRunLeft x y d
  unfold Device.encoderSample
  dsimp only
  repeat' split
  · exact sampled
  · exact sampled.trans (Device.pulse_runs _ _)
  · exact sampled

theorem Device.freeRunPulse_runs (d : Device) : Device.Runs false replies d d.freeRunPulse := by
  unfold Device.freeRunPulse
  split
  · exact (Device.belt_free_runs d.bpu.pauseTimer (d.bpu.freeRunLeft - 1) d.bpu.encA d.bpu.encB d).trans
      (Device.pulse_runs _ _)
  · exact .refl d

theorem Device.retireOutstanding_runs (d : Device) : Device.Runs a replies d d.retireOutstanding := by
  unfold Device.retireOutstanding
  split
  · exact ((Device.retired_runs (List.nil_suffix)).trans
      (Device.belt_free_runs none d.bpu.freeRunLeft d.bpu.encA d.bpu.encB { d with bpu := { d.bpu with outstanding := [] } })).trans
      (Device.declareMisseds_runs _ _)
  · exact .refl d

/-! ### Evaluations and offers (R64, R74 to R90) -/

theorem splitQueue_length (fire : Position) (q : List StampEntry) :
    ((splitQueue fire q).1 ++ (splitQueue fire q).2).length = q.length := by rw [splitQueue_append]

/-- What the four tests of R116 say of an entry that passes them. -/
theorem admitted_iff {position fire : Position} {t : HeadEntry} {h : Head} (passed : admissionRefusal position t h fire = none) :
    crowded t.spacing fire (splitQueue fire h.queue).1 (splitQueue fire h.queue).2 = false ∧ h.queue.length < 8 := by
  unfold admissionRefusal at passed
  split_ifs at passed with _ _ free room
  exact ⟨Bool.eq_false_iff.2 free, Nat.lt_of_not_le room⟩

theorem Device.spacing_positive (n : Fin 4) (d : Device) (legal : d.sth.spacingsLegal) : 1 ≤ (d.headEntry n).spacing := by
  unfold Device.headEntry
  split
  · decide
  · rename_i t found
    by_cases inside : n.val < t.length
    · rw [List.getD_eq_getElem _ _ inside]
      exact legal t found _ (List.getElem_mem inside)
    · rw [List.getD_eq_default _ _ (Nat.le_of_not_lt inside)]
      decide

theorem Device.admitEntry_runs {n : Fin 4} {e : StampEntry} {d : Device} {spacing : Nat}
    (positive : d.sth.spacingsLegal → 1 ≤ spacing)
    (free : crowded spacing e.fire (splitQueue e.fire (d.head n).queue).1 (splitQueue e.fire (d.head n).queue).2 = false)
    (room : (d.head n).queue.length < 8) : Device.Runs true replies d (d.admitEntry n e) := by
  have moved : Device.Runs true replies d (d.setHead n { d.head n with
      queue := (splitQueue e.fire (d.head n).queue).1 ++ e :: (splitQueue e.fire (d.head n).queue).2 }) := by
    refine Device.setHead_runs (fun strike => ⟨strike.1, ?_, fun _ => by simp⟩) (.admitted e positive free rfl)
    have same := splitQueue_length e.fire (d.head n).queue
    simp only [List.length_append, List.length_cons] at same ⊢
    omega
  exact moved.trans (Device.startSetting_runs n false _)

theorem Device.askAdmission_runs (t : Terms) (slot : Nat) (r : HideRecord) (x : Anchor) (n : Fin 4) (d : Device) :
    Device.Runs true replies d (d.askAdmission t slot r x n) := by
  unfold Device.askAdmission
  dsimp only
  split
  · exact Device.setRecord_runs _ _ d
  · rename_i passed
    obtain ⟨free, room⟩ := admitted_iff passed
    exact (Device.setRecord_runs _ _ d).trans (Device.admitEntry_runs (d.spacing_positive n) free room)

theorem Device.stampDecision_runs (t : Terms) (slot : Nat) (r : HideRecord) (d : Device) :
    Device.Runs true replies d (d.stampDecision t slot r) := by
  unfold Device.stampDecision
  repeat' split
  · exact Device.setRecord_runs _ _ d
  · exact Device.setRecord_runs _ _ d
  · exact Device.setRecord_runs _ _ d
  · exact Device.askAdmission_runs _ _ _ _ _ d

theorem Device.feedHide_runs (t : Terms) (r : HideRecord) (d : Device) : Device.Runs a replies d (d.feedHide t r) := by
  unfold Device.feedHide
  repeat' split
  · exact .refl d
  · exact Device.feedPack_runs _ _ d
  · exact .refl d
  · exact .refl d

theorem Device.takeOffer_runs (t : Terms) (slot : Nat) (o : Region) (d : Device) : Device.Runs true replies d (d.takeOffer t slot o) := by
  have numbered : Device.Runs true replies d { d with hev := { d.hev with nextHide := d.hev.nextHide + 1 } } := .evaluator id
  exact ((numbered.trans (Device.stampDecision_runs _ _ _ _)).trans (Device.feedHide_runs _ _ _)).trans
    (Device.askHidePlace_runs _ _)

theorem Device.evaluate_runs (o : Region) (d : Device) : Device.Runs true replies d (d.evaluate o).2 := by
  unfold Device.evaluate
  repeat' split
  · exact .refl d
  · exact .evaluator id
  · exact .raise _ d
  · exact Device.takeOffer_runs _ _ _ d

theorem Rtk.release_moves (queue : List QueueEntry) (k : Rtk) (i : Nat) : Rtk.Moves queue k (k.release i) :=
  .table rfl (k.release_tableKept i).size (k.release_tableKept i).areas

theorem Device.offer_runs (d : Device) (i : Nat) : Device.Runs true replies d (d.offer i) := by
  have evaluated := Device.evaluate_runs (replies := replies) (d.rtk.region i) d
  unfold Device.offer
  split
  · rename_i e found
    rwa [found] at evaluated
  · rename_i answer e _ found
    rw [found] at evaluated
    exact evaluated.trans (.tracker (e.rtk.release_moves _ i))

theorem Device.offerWalk_runs (d : Device) : Device.Runs true replies d d.offerWalk :=
  (Device.retryPending_runs false d).trans (.fold Device.offer_runs _ _)

end Sys2Proof.Machine
end

section
/-!
PROOF. The line operations, the tracker's service of what waits, the requests and the frames are of what a command can do (Device.Runs).
-/

namespace Sys2Proof.Machine

variable {a replies : Bool}

/-! ### Line operations and fills (R47, R48) -/

theorem Device.lineOperation_runs (c : LineContext) {runs : List Run} {d : Device}
    (source : runs = d.rtk.prev.runs.map spanRun ∨ ∃ w status, d.rtk.work = some w ∧ w.entry.content = .line status runs) :
    Device.Runs true replies d (d.lineOperation c runs) := by
  have walked (e : Device) (rtk : e.rtk = d.rtk.stages2to7 c runs) (lcn : e.lcn = d.lcn)
      (before : Device.Runs true replies { d with rtk := d.rtk.stages2to7 c runs } e) :
      Device.Runs true replies d { e.offerWalk with rtk := e.offerWalk.rtk.stage9 c } := by
    have queue : e.offerWalk.lcn = d.lcn := (Device.offerWalk_touches e .lcn (by decide)).trans lcn
    exact .lineOperation c source (before.trans (Device.offerWalk_runs e)) (rtk ▸ Device.offerWalk_rtk e) queue
  unfold Device.lineOperation
  dsimp only
  split
  · exact walked _ rfl rfl (.raise _ _)
  · exact walked _ rfl rfl (.refl _)

theorem Rtk.stages2to7_sameRecord (c : LineContext) (runs : List Run) (k : Rtk) : k.sameRecord (k.stages2to7 c runs) := by
  obtain ⟨matched, _⟩ := Rtk.matchRuns_shape c runs k
  have accumulated := (Rtk.stage3_tableOnly c (runs.foldl (Rtk.matchRun c) k)).sameRecord
  have closed := (Rtk.stages4to7_shape c ((runs.foldl (Rtk.matchRun c) k).stage3 c)).1
  exact Rtk.sameRecord_trans matched (Rtk.sameRecord_trans accumulated closed)

/-- A line operation leaves the entry under way and the waiting requests. -/
theorem Device.lineOperation_work (c : LineContext) (runs : List Run) (d : Device) :
    (d.lineOperation c runs).rtk.work = d.rtk.work ∧ (d.lineOperation c runs).rtk.waiting = d.rtk.waiting := by
  have record := Rtk.stages2to7_sameRecord c runs d.rtk
  have walked (e : Device) (rtk : e.rtk = d.rtk.stages2to7 c runs) :
      (e.offerWalk.rtk.stage9 c).work = d.rtk.work ∧ (e.offerWalk.rtk.stage9 c).waiting = d.rtk.waiting := by
    have lists := Device.offerWalk_rtk e
    rw [rtk, record] at lists
    rw [lists]
    exact ⟨rfl, rfl⟩
  unfold Device.lineOperation
  dsimp only
  split
  · exact walked _ rfl
  · exact walked _ rfl

theorem Device.replayOne_runs (t : Terms) {w : Work} {d : Device} (underWay : d.rtk.work = some w) (left : w.left ≠ 0) :
    Device.Runs true replies d (d.replayOne t w) := by
  unfold Device.replayOne Device.performFill
  dsimp only
  generalize Device.lineContext t _ _ true d = c
  refine (Device.lineOperation_runs c (.inl rfl)).trans ?_
  have work := (Device.lineOperation_work c (d.rtk.prev.runs.map spanRun) d).1.trans underWay
  generalize d.lineOperation c (d.rtk.prev.runs.map spanRun) = e at work ⊢
  have more : w.done < w.entry.replays := Nat.lt_of_sub_ne_zero left
  split
  · exact .tracker .ended
  · rename_i goes
    simp only [Bool.and_eq_true, decide_eq_true_eq, not_and] at goes
    exact .tracker (.replayed work more fun fill => Nat.lt_of_sub_ne_zero (goes fill))

theorem Device.replayAll_runs (t : Terms) : ∀ (n : Nat) (d : Device), Device.Runs true replies d (Device.replayAll t n d)
  | 0, d => .refl d
  | n + 1, d => by
    unfold Device.replayAll
    split
    · rename_i w found
      split
      · exact .refl d
      · rename_i left
        exact (Device.replayOne_runs t found left).trans (Device.replayAll_runs t n _)
    · exact .refl d

theorem Device.performLine_runs (t : Terms) (d : Device) : Device.Runs true replies d (d.performLine t) := by
  unfold Device.performLine
  split
  · rename_i w found
    split
    · rename_i status runs content
      exact (Device.lineOperation_runs _ (.inr ⟨w, status, found, content⟩)).trans (.tracker .ended)
    · exact .refl d
  · exact .refl d

theorem Device.performEntry_runs (t : Terms) (d : Device) : Device.Runs true replies d (d.performEntry t) := by
  unfold Device.performEntry
  split
  · exact (Device.replayAll_runs t _ d).trans (Device.performLine_runs t _)
  · exact .refl d

theorem Device.takeEntry_runs (d : Device) : Device.Runs a replies d d.takeEntry := by
  unfold Device.takeEntry
  split
  · exact .refl d
  · rename_i e rest found
    have taken : Device.Runs a replies d { d with rtk := { d.rtk with work := some ⟨e, 0⟩ } } :=
      .tracker (.taken (by rw [found]; exact List.mem_cons_self))
    refine taken.trans (Device.placeFillEntry_runs (d := { d with rtk := { d.rtk with work := some ⟨e, 0⟩ } })
      (fun x waits => .inl ?_) fun bounds => ?_)
    · show x ∈ d.lcn.queue
      rw [found]
      exact List.mem_cons_of_mem e waits
    · obtain ⟨short, low, behind⟩ := bounds
      rw [found, List.length_cons] at short behind
      exact ⟨Nat.le_of_succ_le short, low, fun fills => ⟨(behind fills).1, .inl (Nat.le_of_succ_le_succ (behind fills).2.ge)⟩⟩

/-! ### FLUSH, LINE_RESET and the service of what waits (R47, R65, R67, R166, R214) -/

theorem Device.flushRegions_runs (d : Device) : Device.Runs true replies d d.flushRegions := by
  have closed : Device.Runs true replies d { d with rtk := (d.rtk.stage6 d.rtk.flushLine).stage7 true } := by
    have kept := (Rtk.stage6_tableKept d.rtk.flushLine d.rtk).trans (Rtk.stage7_tableKept true _)
    have only := Rtk.flushStages_tableOnly d.rtk.flushLine d.rtk
    refine .tracker (.table ?_ kept.size kept.areas)
    unfold Rtk.tableOnly at only
    rw [only]
    rfl
  exact (closed.trans (Device.offerWalk_runs _)).trans (.tracker .flushed)

theorem Device.resetLine_runs (d : Device) : Device.Runs a replies d d.resetLine := by
  have belt : Device.Runs a replies d { d with bpu := d.bpu.lineReset d.ccu.dividerLoad } := .belt .lineReset
  refine belt.trans (.trans (.conditioner (c := d.lcn.lineReset) ⟨fun _ => ?_, fun e he => absurd he List.not_mem_nil⟩) ?_)
  · exact ⟨Nat.zero_le _, Nat.zero_le _, fun fills => absurd fills (Nat.lt_irrefl 0)⟩
  refine .trans (.tracker .lineReset) (.trans (.evaluator (v := d.hev.lineReset) fun sized => ⟨List.length_replicate, sized.2⟩) ?_)
  refine .trans (.heads .lineReset) (.trans (.packs (p := { d.pku with slots := List.replicate 4 ⟨none, none⟩ }) fun _ => rfl) ?_)
  exact .trans (.control (d.lct.line_moves fun _ => LineState.noConfusion)) (.custody .lineReset)

theorem Device.performWaiting_runs (w : Waiting) (d : Device) : Device.Runs true replies d (d.performWaiting w).2 := by
  cases w with
  | flush =>
    show Device.Runs true replies d d.performFlush.2
    unfold Device.performFlush
    repeat' split
    · exact .refl d
    · exact .refl d
    · exact Device.flushRegions_runs d
  | lineReset =>
    show Device.Runs true replies d d.performLineReset.2
    unfold Device.performLineReset
    split
    · exact Device.resetLine_runs d
    · exact .refl d
  | readRegions segment =>
    show Device.Runs true replies d (d.performReadRegions segment).2
    unfold Device.performReadRegions
    split <;> exact .refl d

theorem Device.serveOldest_runs (d : Device) : Device.Runs true true d d.serveOldest := by
  unfold Device.serveOldest
  split
  · exact .refl d
  · rename_i w rest found
    exact .served _ found (Device.performWaiting_runs w _)

theorem Device.walkPending_runs : ∀ (n : Nat) (d : Device), Device.Runs true replies d (d.walkPending n)
  | 0, d => .refl d
  | n + 1, d => by
    unfold Device.walkPending
    split
    · exact (Device.offerWalk_runs d).trans (Device.walkPending_runs n _)
    · exact .refl d

theorem Device.settleFor_runs : ∀ (n : Nat) (d : Device), Device.Runs true true d (d.settleFor n)
  | 0, d => Device.walkPending_runs 65 d
  | n + 1, d => by
    unfold Device.settleFor
    dsimp only
    split
    · exact Device.walkPending_runs 65 d
    · exact ((Device.walkPending_runs 65 d).trans (Device.serveOldest_runs _)).trans (Device.settleFor_runs n _)

theorem Device.settle_runs (d : Device) : Device.Runs true true d d.settle := Device.settleFor_runs _ d

theorem Device.wait_runs (w : Waiting) (d : Device) : Device.Runs true true d (d.wait w) := by
  unfold Device.wait
  split
  · rename_i full
    exact Device.owe_runs _ full
  · rename_i place
    have waits : Device.Runs true true d _ := .waits w (Bool.eq_false_iff.2 place)
    dsimp only
    split
    · exact waits.trans (Device.settle_runs _)
    · exact waits

theorem Device.serveKind_runs (kind : Waiting → Bool) (d : Device) : Device.Runs true true d (d.serveKind kind) := by
  unfold Device.serveKind
  repeat' split
  · exact .refl d
  · exact (Device.walkPending_runs 65 d).trans (Device.serveOldest_runs _)
  · exact .refl d

theorem Device.takeNext_runs (wanted : QueueEntry → Bool) (d : Device) : Device.Runs true true d (d.takeNext wanted) := by
  unfold Device.takeNext
  repeat' split
  · exact (Device.settle_runs d).trans (Device.takeEntry_runs _)
  · exact .refl d
  · exact .refl d
  · exact .refl d

theorem Device.trackLine_runs (d : Device) : Device.Runs true true d d.trackLine := by
  unfold Device.trackLine
  split
  · exact (Device.takeNext_runs _ d).trans (Device.performEntry_runs _ _)
  · exact .refl d

theorem Device.nextFill_runs (t : Terms) (d : Device) : Device.Runs true replies d (d.nextFill t) := by
  unfold Device.nextFill
  split
  · rename_i w found
    split
    · exact .refl d
    · rename_i left
      exact Device.replayOne_runs t found left
  · exact .refl d

theorem Device.trackFill_runs (d : Device) : Device.Runs true true d d.trackFill := by
  unfold Device.trackFill
  split
  · exact (Device.takeNext_runs _ d).trans (Device.nextFill_runs _ _)
  · exact .refl d

theorem Device.walkBetweenLines_runs (d : Device) : Device.Runs true replies d d.walkBetweenLines := by
  unfold Device.walkBetweenLines
  split
  · exact Device.offerWalk_runs d
  · exact .refl d

/-! ### Requests -/

theorem Device.answer_runs (kind : Byte) {perform : Device → Reply × Device} {d : Device}
    (performed : Device.Runs a false d (perform d).2) : Device.Runs a true d (d.answer kind perform) := by
  unfold Device.answer
  split
  · rename_i full
    exact Device.owe_runs kind full
  · rename_i place
    exact .answered _ (Bool.eq_false_iff.2 place) performed

theorem Device.requestStart_runs (d : Device) : Device.Runs a replies d d.requestStart.2 := by
  unfold Device.requestStart
  repeat' split
  · exact .refl d
  · exact .refl d
  · exact .refl d
  · exact Device.runLine_runs d

theorem Device.requestStop_runs (d : Device) : Device.Runs a replies d d.requestStop.2 := by
  show Device.Runs a replies d d.stopLine
  unfold Device.stopLine
  split
  · exact Device.pauseLine_runs _ _ d
  · exact .control (d.lct.line_moves id)
  all_goals exact .refl d

theorem Device.requestAckFault_runs (d : Device) : Device.Runs a replies d d.requestAckFault.2 := by
  unfold Device.requestAckFault
  repeat' split
  · exact .refl d
  · exact .refl d
  · exact Device.leaveFault_runs d

/-- The checks of a LOAD all pass when none is found bad. -/
theorem firstBad_eq_none {checks : List (Bool × Nat)} : firstBad checks = none ↔ ∀ c ∈ checks, c.1 = true := by
  induction checks with
  | nil => simp [firstBad]
  | cons c rest ih =>
    obtain ⟨ok, detail⟩ := c
    cases ok <;> simp [firstBad, ih]

theorem wordsOf_length : ∀ (k : Nat) (b : List Byte), (wordsOf k b).length = k
  | 0, _ => rfl
  | k + 1, b => congrArg (· + 1) (wordsOf_length k (b.drop 2))

theorem wordChecks_legal {t : CalTable} {start : Nat} : ∀ {k : Nat} {words : List Nat},
    (∀ c ∈ wordChecks t start k words, c.1 = true) → ∀ i w, words[i]? = some w → wordLegal (start + k + i + 1) w = true
  | _, [], _, i, w, found => by simp at found
  | k, x :: rest, passed, 0, w, found => by
    rw [List.getElem?_cons_zero, Option.some.injEq] at found
    exact found ▸ passed _ List.mem_cons_self
  | k, x :: rest, passed, i + 1, w, found => by
    rw [List.getElem?_cons_succ] at found
    have legal := wordChecks_legal (fun c he => passed c (List.mem_cons_of_mem _ he)) i w found
    rwa [show start + k + (i + 1) + 1 = start + (k + 1) + i + 1 by omega]

theorem segmentRefusal_legal {t : CalTable} {segment : Nat} {words : List Nat} (passed : segmentRefusal t segment words = none)
    (i w : Nat) (found : words[i]? = some w) : wordLegal (t.start segment + i + 1) w = true :=
  wordChecks_legal (k := 0) (fun c he => firstBad_eq_none.1 passed c (List.mem_append_left _ he)) i w found

theorem Device.loadCal_runs (t : CalTable) (segment : Byte) (data : List Byte) (d : Device) :
    Device.Runs a replies d (d.loadCal t segment data).2 := by
  unfold Device.loadCal
  dsimp only
  split
  · exact .refl d
  · split
    · exact .refl d
    · rename_i unlocked
      split
      · exact .refl d
      · rename_i idle
        split
        · exact .refl d
        · rename_i inside
          split
          · exact .refl d
          · split
            · exact .refl d
            · rename_i passed
              exact .custody (.loaded t (Bool.eq_false_iff.2 unlocked) (Bool.eq_false_iff.2 idle) (Nat.lt_of_not_le inside)
                (wordsOf_length _ _) (segmentRefusal_legal passed))

theorem Ccu.firstUnset_eq_none {c : Ccu} (none : c.firstUnset = none) (i : Nat) (inside : i < 16) :
    c.segments.getD i .unset ≠ .unset := by
  have all := List.find?_eq_none.1 none i (List.mem_range.2 inside)
  simpa using all

theorem Device.commitCal_runs (sum : Word32) (d : Device) : Device.Runs a replies d (d.commitCal sum).2 := by
  unfold Device.commitCal
  split
  · exact .refl d
  · split
    · exact .refl d
    · rename_i open'
      split
      · exact .refl d
      · rename_i idle
        split
        · exact .refl d
        · rename_i set
          split
          · exact .refl d
          · simp only [Bool.or_eq_true, not_or] at open'
            have started := Ccu.Moves.started (draws := d.draws) (Bool.eq_false_iff.2 open'.1) (Bool.eq_false_iff.2 idle)
              (Ccu.firstUnset_eq_none set)
            exact (Device.Runs.custody started).trans (.drawn _ (d.draws + 1))

theorem Device.closeForTerms_runs (d : Device) : Device.Runs a replies d d.closeForTerms :=
  .fold (fun d n => Device.closePack_runs n _ d) _ d

theorem Device.loadTerms_runs (segment : Byte) (data : List Byte) (d : Device) :
    Device.Runs a replies d (d.loadTerms segment data).2 := by
  unfold Device.loadTerms
  repeat' split
  · exact .refl d
  · exact .refl d
  · exact .refl d
  · exact .refl d
  · refine (Device.closeForTerms_runs d).trans (.evaluator fun sized => ⟨sized.1, fun t same => ?_⟩)
    rw [← Option.some.inj same]
    rfl

/-- The spacing of a head's data that passes its checks (R112, field 6). -/
theorem headsRefusal_spacing {b : List Byte} (passed : headsRefusal b = none) (n : Nat) (inside : n < 4) :
    1 ≤ (headEntryAt b n).spacing := by
  have checked := firstBad_eq_none.1 passed
    (1 ≤ fieldAt (20 * n + 11) 4 b && fieldAt (20 * n + 11) 4 b ≤ 16777215, detailOf 6 n)
    (List.mem_flatMap.2 ⟨n, List.mem_range.2 inside, by simp [headChecks]⟩)
  simp only [Bool.and_eq_true, decide_eq_true_eq] at checked
  exact checked.1

theorem Device.takeHeads_runs {t : List HeadEntry} (four : t.length = 4) (spacings : ∀ e ∈ t, 1 ≤ e.spacing) (d : Device) :
    Device.Runs a replies d (d.takeHeads t) := .heads (.load four spacings)

theorem headsAt_spacing {b : List Byte} (passed : headsRefusal b = none) : ∀ e ∈ headsAt b, 1 ≤ e.spacing := by
  intro e he
  simp only [headsAt, List.mem_map, List.mem_range] at he
  obtain ⟨n, inside, rfl⟩ := he
  exact headsRefusal_spacing passed n inside

theorem headsAt_length (b : List Byte) : (headsAt b).length = 4 := by simp [headsAt]

theorem Device.loadHeads_runs (segment : Byte) (data : List Byte) (d : Device) :
    Device.Runs a replies d (d.loadHeads segment data).2 := by
  unfold Device.loadHeads
  repeat' split
  · exact .refl d
  · exact .refl d
  · exact .refl d
  · exact .refl d
  · rename_i passed
    exact Device.takeHeads_runs (headsAt_length data) (headsAt_spacing passed) d

theorem inputsAt_length (b : List Byte) : (inputsAt b).length = 8 := by simp [inputsAt]

theorem Device.loadInputs_runs (segment : Byte) (data : List Byte) (d : Device) :
    Device.Runs false replies d (d.loadInputs segment data).2 := by
  have taken := Device.takeInputsTable_runs (replies := replies) (inputsAt_length data) d
  unfold Device.loadInputs
  repeat' split
  · exact .refl d
  · exact .refl d
  · exact .refl d
  · exact .refl d
  · generalize d.takeInputsTable (inputsAt data) = e at taken ⊢
    exact taken

theorem Device.performLoad_runs (message : List Byte) (d : Device) : Device.Runs false replies d (d.performLoad message).2 := by
  unfold Device.performLoad
  dsimp only
  repeat' split
  · exact .refl d
  · exact Device.loadCal_runs _ _ _ d
  · exact Device.loadCal_runs _ _ _ d
  · exact Device.loadCal_runs _ _ _ d
  · exact Device.loadTerms_runs _ _ d
  · exact Device.loadHeads_runs _ _ d
  · exact Device.loadInputs_runs _ _ d
  · exact .refl d

theorem Device.requestHeadOff_runs (head : Byte) (d : Device) : Device.Runs a replies d (d.requestHeadOff head).2 := by
  unfold Device.requestHeadOff
  split
  · exact .refl d
  · exact Device.headOff_runs _ d

theorem Device.requestHeadOn_runs (head on : Byte) (d : Device) : Device.Runs a replies d (d.requestHeadOn head on).2 := by
  unfold Device.requestHeadOn
  repeat' split
  · exact .refl d
  · exact .refl d
  · exact .refl d
  · exact Device.headOn_runs _ d

theorem Device.requestClearStall_runs (head : Byte) (d : Device) : Device.Runs a replies d (d.requestClearStall head).2 := by
  unfold Device.requestClearStall
  split
  · exact .refl d
  · exact Device.clearStall_runs _ d

theorem Device.requestClosePack_runs (slot : Byte) (d : Device) : Device.Runs a replies d (d.requestClosePack slot).2 := by
  unfold Device.requestClosePack
  repeat' split
  · exact .refl d
  · exact .refl d
  · exact .refl d
  · exact Device.closePack_runs _ _ d

theorem Device.changeControl_runs (set : Bool) (mask : Word32) (d : Device) : Device.Runs a replies d (d.changeControl set mask).2 := by
  unfold Device.changeControl
  split
  · exact .refl d
  · dsimp only
    split
    · exact .refl d
    · rename_i inRange
      simp only [Bool.or_eq_true, decide_eq_true_eq, not_or] at inRange
      split
      · exact .refl d
      · exact .control ⟨id, fun _ => by dsimp only; omega, id, rfl, rfl, rfl⟩

theorem withIndex_length {α : Type} : ∀ (i : Nat) (l : List α), (withIndex i l).length = l.length
  | _, [] => rfl
  | i, _ :: l => congrArg (· + 1) (withIndex_length (i + 1) l)

theorem Device.changeEventMask_runs (set : Bool) (mask : Word32) (d : Device) :
    Device.Runs a replies d (d.changeEventMask set mask).2 := by
  have changed : Device.Runs a replies d { d with lct := d.lct.changeMask set mask } :=
    .control ⟨id, id, id, rfl, rfl, (List.length_map _).trans (withIndex_length 0 _)⟩
  unfold Device.changeEventMask
  split
  · exact .refl d
  · dsimp only
    split
    · exact changed
    · exact changed.trans (Device.askEventPlace_runs _)

theorem Device.changeFlags_runs (set : Bool) (selector : Byte) (mask : Word32) (d : Device) :
    Device.Runs a replies d (d.changeFlags set selector mask).2 := by
  unfold Device.changeFlags
  repeat' split
  · exact Device.changeControl_runs _ _ d
  · exact Device.changeEventMask_runs _ _ d
  · exact .refl d

theorem Device.clearCounters_runs (d : Device) : Device.Runs a replies d d.clearCounters := by
  have lines : Device.Runs a replies d { d with lcn := { d.lcn with missed := 0, stray := 0, malformed := 0 } } :=
    Device.counted_runs rfl rfl rfl
  refine lines.trans (.trans (.tracker (k := { d.rtk with linesProcessed := 0 }) (.table rfl rfl id)) ?_)
  refine .trans (.evaluator (v := { d.hev with scraps := 0, discarded := 0 }) id) ?_
  exact .link (.counters 0 0 0 0)

/-- A request that is not a LOAD's: performed, with the walks that a waiting one brings (R212). -/
theorem Device.takeRequest_runs (c : Instr) (d : Device) : ∃ offers, Device.Runs offers true d (d.takeRequest c) := by
  have unchanged (kind : Byte) (perform : Device → Reply × Device) (same : (perform d).2 = d) :
      ∃ offers, Device.Runs offers true d (d.answer kind perform) :=
    ⟨false, Device.answer_runs kind (by rw [same]; exact .refl d)⟩
  have performed (kind : Byte) (perform : Device → Reply × Device) (h : Device.Runs false false d (perform d).2) :
      ∃ offers, Device.Runs offers true d (d.answer kind perform) := ⟨false, Device.answer_runs kind h⟩
  cases c with
  | query | readWidths | readMask | readConditioning | readTerms | readHeads | readInputs | readRecords | readQueues
  | readBadArea | unknownRequest => exact unchanged _ _ rfl
  | start => exact performed _ _ (Device.requestStart_runs d)
  | stop => exact performed _ _ (Device.requestStop_runs d)
  | ackFault => exact performed _ _ (Device.requestAckFault_runs d)
  | flush | lineReset | readRegions => exact ⟨true, Device.wait_runs _ d⟩
  | commitCal sum => exact performed _ _ (Device.commitCal_runs sum d)
  | setFlagsControl | clearFlagsControl | setFlagsEventMask | clearFlagsEventMask =>
    exact performed _ _ (Device.changeFlags_runs _ _ _ d)
  | headEnableOff head => exact performed _ _ (Device.requestHeadOff_runs head d)
  | headEnableOn head on => exact performed _ _ (Device.requestHeadOn_runs head on d)
  | clearStall head => exact performed _ _ (Device.requestClearStall_runs head d)
  | closePack slot => exact performed _ _ (Device.requestClosePack_runs slot d)
  | lockNext => exact performed _ _ (.custody .lockNext)
  | clearCounters => exact performed _ _ (Device.clearCounters_runs d)
  | _ => exact ⟨false, .refl d⟩

/-! ### Frames (R195 to R200) -/

theorem Device.setAssembly_runs (x : Option Assembly) (d : Device) : Device.Runs a replies d (d.setAssembly x) := .link (.assembly x)

theorem Device.setReceiver_runs (port : Port) (r : Receiver) (d : Device) : Device.Runs a replies d (d.setReceiver port r) :=
  .link (.receiver port r)

theorem Device.abandon_runs (d : Device) : Device.Runs a replies d (d.setAssembly none).countAbandoned :=
  (Device.setAssembly_runs none d).trans (Device.countAbandoned_runs _)

theorem Device.takeLoad_runs (message : List Byte) (d : Device) : Device.Runs false true d (d.takeLoad message) :=
  Device.answer_runs _ (Device.performLoad_runs message d)

theorem Device.openPart_runs (part : Byte) (bytes : List Byte) (d : Device) : Device.Runs false true d (d.openPart part bytes) := by
  unfold Device.openPart
  repeat' split
  · exact Device.countAbandoned_runs d
  · exact Device.takeLoad_runs _ d
  · exact Device.setAssembly_runs _ d

theorem Device.nextPart_runs (x : Assembly) (part : Byte) (bytes : List Byte) (d : Device) :
    Device.Runs false true d (d.nextPart x part bytes) := by
  unfold Device.nextPart
  repeat' split
  · exact (Device.abandon_runs d).trans (Device.openPart_runs _ _ _)
  · exact (Device.setAssembly_runs none d).trans (Device.takeLoad_runs _ _)
  · exact Device.setAssembly_runs _ d
  · exact Device.abandon_runs d

theorem Device.takePart_runs (payload : List Byte) (d : Device) : Device.Runs false true d (d.takePart payload) := by
  unfold Device.takePart
  repeat' split
  · exact Device.takeLoad_runs _ d
  · exact Device.openPart_runs _ _ d
  · exact Device.nextPart_runs _ _ _ d

theorem Device.partTimeout_runs (d : Device) : Device.Runs a replies d d.partTimeout := by
  unfold Device.partTimeout
  repeat' split
  · exact Device.abandon_runs d
  · exact .refl d
  · exact .refl d

theorem Device.frameTimeout_runs (port : Port) (d : Device) : Device.Runs a replies d (d.frameTimeout port) := by
  unfold Device.frameTimeout
  repeat' split
  · exact .refl d
  · exact (Device.setReceiver_runs _ _ d).trans (Device.discardFrame_runs _)
  · exact .refl d

theorem Device.route_runs (port : Port) (f : Frame) (d : Device) : ∃ offers, Device.Runs offers true d (d.route port f) := by
  cases port with
  | upstream =>
    refine ⟨false, ?_⟩
    show Device.Runs false true d (d.routeUpstream f)
    unfold Device.routeUpstream
    split
    · exact Device.lineFrame_runs _ _ d
    · exact Device.forwardDown_runs f d
  | downstream =>
    show ∃ offers, Device.Runs offers true d (d.routeDownstream f)
    unfold Device.routeDownstream
    split
    · split
      · exact ⟨false, Device.takePart_runs _ d⟩
      · exact Device.takeRequest_runs _ d
    · split
      · exact ⟨false, Device.forwardUp_runs f d⟩
      · exact ⟨false, Device.discardFrame_runs d⟩

theorem Device.received_runs (port : Port) {f : Device → Device} (h : ∀ d, ∃ offers, Device.Runs offers true d (f d)) (d : Device) :
    ∃ offers, Device.Runs offers true d (d.received port f) := by
  obtain ⟨offers, runs⟩ := h (d.setReceiver port .hunting)
  exact ⟨offers, (Device.setReceiver_runs port .hunting d).trans runs⟩

theorem Device.takeByte_runs (port : Port) (b : Byte) (d : Device) : ∃ offers, Device.Runs offers true d (d.takeByte port b) := by
  unfold Device.takeByte
  repeat' split
  · exact ⟨false, Device.setReceiver_runs _ _ d⟩
  · exact ⟨false, .refl d⟩
  · exact ⟨false, Device.setReceiver_runs _ _ d⟩
  · exact Device.received_runs port (fun d => ⟨false, Device.discardFrame_runs d⟩) d
  · exact Device.received_runs port (fun d => Device.route_runs _ _ d) d

theorem Device.commitTimerExpiry_runs (d : Device) : Device.Runs a replies d d.commitTimerExpiry := by
  unfold Device.commitTimerExpiry
  split
  · rename_i due
    rw [Bool.and_eq_true] at due
    exact .custody (.failed due.1)
  · exact .refl d

end Sys2Proof.Machine
end

section
/-!
PROOF. Every step is an idle one, a supply event, the end of INIT, a tick, a completed seal write, or events in service, each of which is
of what a command can do (Device.Runs) with the LCT's ask at its end. What all of these keep, every step keeps.
-/

namespace Sys2Proof.Machine

/-- An event in service, the completed seal write apart: what its command does, then the LCT's ask (R173). -/
def Device.Event (d t : Device) : Prop := d.InService ∧ ∃ offers e, Device.Runs offers true d e ∧ t = e.askEventPlace

theorem Device.Event.runs {d t : Device} (h : d.Event t) : ∃ offers, Device.Runs offers true d t := by
  obtain ⟨_, offers, e, runs, rfl⟩ := h
  exact ⟨offers, runs.trans (Device.askEventPlace_runs e)⟩

theorem Device.live_iff {d : Device} : d.live = true ↔ d.InService := by
  refine ⟨fun live => ?_, Device.InService.live⟩
  simp only [Device.live, Bool.and_eq_true, bne_iff_ne, ne_eq] at live
  exact ⟨live.1, live.2⟩

theorem Device.event_cases {f : Device → Device} (h : ∀ d, ∃ offers, Device.Runs offers true d (f d)) (d : Device) :
    d.event f = d ∨ d.Event (d.event f) := by
  unfold Device.event
  split
  · rename_i live
    obtain ⟨offers, runs⟩ := h d
    exact .inr ⟨Device.live_iff.1 live, offers, f d, runs, rfl⟩
  · exact .inl rfl

/-- The rows that are one event in service, the completed seal write apart. -/
def oneEvent : Instr → Bool
  | .tick | .sealWriteComplete | .discardedFrame _ _ => false
  | c => whileRunning c

/-- A row of one event does what a command can do, and that is all it does. -/
theorem exec_oneEvent {c : Instr} (one : oneEvent c = true) :
    ∃ f : Device → Device, (∀ s, exec c s = s.event f) ∧ ∀ d, ∃ offers, Device.Runs offers true d (f d) := by
  have request {kind : Byte} (named : requestKind c = some kind) (other : kind ≠ kindLoad) :
      ∃ f : Device → Device, (∀ s, exec c s = s.event f) ∧ ∀ d, ∃ offers, Device.Runs offers true d (f d) :=
    ⟨_, exec_request named other, Device.received_runs _ (Device.takeRequest_runs c)⟩
  have load {kind : Byte} {perform : Device → Reply × Device} (row : ∀ s, exec c s = s.request kind perform)
      (performed : ∀ d, Device.Runs false false d (perform d).2) :
      ∃ f : Device → Device, (∀ s, exec c s = s.event f) ∧ ∀ d, ∃ offers, Device.Runs offers true d (f d) :=
    ⟨_, row, Device.received_runs _ fun d => ⟨false, Device.answer_runs _ (performed d)⟩⟩
  have event {f : Device → Device} {offers : Bool} (row : ∀ s, exec c s = s.event f)
      (performed : ∀ d, Device.Runs offers true d (f d)) :
      ∃ f : Device → Device, (∀ s, exec c s = s.event f) ∧ ∀ d, ∃ offers, Device.Runs offers true d (f d) :=
    ⟨f, row, fun d => ⟨offers, performed d⟩⟩
  have frame {f : Device → Device} {port : Port} (row : ∀ s, exec c s = s.event (Device.received port f))
      (performed : ∀ d, Device.Runs false true d (f d)) :
      ∃ f : Device → Device, (∀ s, exec c s = s.event f) ∧ ∀ d, ∃ offers, Device.Runs offers true d (f d) :=
    ⟨_, row, Device.received_runs _ fun d => ⟨false, performed d⟩⟩
  cases c with
  | powerOn | resetPin | powerLoss | endOfInit | tick | sealWriteComplete | discardedFrame => exact absurd one Bool.false_ne_true
  | encoderEdge x y => exact event (fun _ => rfl) (Device.encoderSample_runs x y)
  | freeRunPulse => exact event (fun _ => rfl) Device.freeRunPulse_runs
  | pauseRetirementExpiry => exact event (offers := false) (fun _ => rfl) Device.retireOutstanding_runs
  | lineFrame source payload => exact frame (fun _ => rfl) (Device.lineFrame_runs source payload)
  | barReplyFrame kind source payload => exact frame (fun _ => rfl) (Device.forwardDown_runs _)
  | barForwardFrame kind payload => exact frame (fun _ => rfl) (Device.forwardUp_runs _)
  | badTargetFrame => exact frame (fun _ => rfl) Device.discardFrame_runs
  | frameTimeoutExpiry port => exact event (offers := false) (fun _ => rfl) (Device.frameTimeout_runs port)
  | loadPart payload => exact frame (fun _ => rfl) (Device.takePart_runs payload)
  | loadPartTimeout => exact event (offers := false) (fun _ => rfl) Device.partTimeout_runs
  | downstreamFrameEnd => exact event (offers := false) (fun _ => rfl) Device.endDownFrame_runs
  | upstreamFrameEnd => exact event (offers := false) (fun _ => rfl) Device.endUpFrame_runs
  | lineOperation => exact event (fun _ => rfl) Device.trackLine_runs
  | fill => exact event (fun _ => rfl) Device.trackFill_runs
  | offerWalk => exact event (fun _ => rfl) Device.walkBetweenLines_runs
  | setTimeExpiry head w => exact event (fun _ => rfl) (Device.setTimeExpiry_runs head w)
  | strikeTimeExpiry head => exact event (fun _ => rfl) (Device.strikeTimeExpiry_runs head)
  | recoverTimeExpiry head => exact event (offers := false) (fun _ => rfl) (Device.recoverTimeExpiry_runs head)
  | inputSample input level => exact event (fun _ => rfl) (Device.sampleInput_runs input level)
  | debounceExpiry input => exact event (fun _ => rfl) (Device.debounceExpiry_runs input)
  | commitTimerExpiry => exact event (offers := false) (fun _ => rfl) Device.commitTimerExpiry_runs
  | flushService | lineResetService | readRegionsService => exact event (fun _ => rfl) (Device.serveKind_runs _)
  | loadWidths segment data | loadMask segment data | loadConditioning segment data =>
    exact load (fun _ => rfl) (Device.loadCal_runs _ segment data)
  | loadTerms segment data => exact load (fun _ => rfl) (Device.loadTerms_runs segment data)
  | loadHeads segment data => exact load (fun _ => rfl) (Device.loadHeads_runs segment data)
  | loadInputs segment data => exact load (fun _ => rfl) (Device.loadInputs_runs segment data)
  | loadBadTable | unknownRequest => exact load (fun _ => rfl) fun d => .refl d
  | _ => exact request rfl (by decide)

/-! ### What every step keeps -/

theorem Device.InService.of_touches {ps : List Block} {d t : Device} (service : d.InService) (h : Touches ps d t)
    (powered : Block.powered ∉ ps) (lct : Block.lct ∉ ps) : t.InService := by
  have powered : t.powered = d.powered := h .powered powered
  have lct : t.lct = d.lct := h .lct lct
  exact ⟨powered ▸ service.powered, lct ▸ service.afterInit⟩

theorem Device.Runs.powered {offers replies : Bool} {d t : Device} (h : Device.Runs offers replies d t) : t.powered = d.powered := by
  induction h with
  | refl | belt | conditioner | tracker | evaluator | heads | packs | control | custody | drawn | waits => rfl
  | trans _ _ first second => exact second.trans first
  | link h => exact h.touches .powered (by decide)
  | answered message _ _ ih => exact (Device.placeReply_touches message _ .powered (by decide)).trans ih
  | served message _ _ ih => exact (Device.placeReply_touches message _ .powered (by decide)).trans ih
  | lineOperation _ _ _ _ _ ih => exact ih

theorem Device.Runs.inService {offers replies : Bool} {d t : Device} (h : Device.Runs offers replies d t) (service : d.InService) :
    t.InService := ⟨h.powered ▸ service.powered, h.lct_moves.afterInit service.afterInit⟩

/-- The LCT's ask alone is an event. -/
theorem Device.InService.ask {d : Device} (service : d.InService) : d.Event d.askEventPlace :=
  ⟨service, false, d, .refl d, rfl⟩

section
variable {P : Device → Prop}

/-- What events keep, every byte of a port keeps. -/
theorem Device.takeBytes_keeps (event : ∀ d t, P d → Device.Event d t → P t) (port : Port) (bytes : List Byte) :
    ∀ d, P d → P (d.takeBytes port bytes) := by
  induction bytes with
  | nil => exact fun d kept => kept
  | cons b bytes ih =>
    intro d kept
    refine ih (d.event (Device.takeByte port b)) ?_
    rcases Device.event_cases (Device.takeByte_runs port b) d with idle | happened
    · rwa [idle]
    · exact event _ _ kept happened

/-- What an event, a completed seal write, a tick, a restart, a loss of power and the end of INIT keep, every command keeps. -/
theorem exec_keeps (event : ∀ d t, P d → Device.Event d t → P t)
    (sealed : ∀ d, d.InService → d.ccu.committing = true → P d → P d.sealWriteComplete)
    (tick : ∀ d, P d → P d.tick) (restart : ∀ d, P d → P d.restart)
    (loss : ∀ d, P d → P { d.restart with powered := false })
    (init : ∀ a b strap inputs d, d.lct.lineState = .init → P d → P (d.endOfInit a b strap inputs))
    {c : Instr} {s t : State} (done : exec c s = .next t) (kept : P s.dev) : P t.dev := by
  by_cases one : oneEvent c = true
  · obtain ⟨f, row, runs⟩ := exec_oneEvent one
    rw [row] at done
    cases done
    show P (s.dev.event f)
    rcases Device.event_cases runs s.dev with idle | happened
    · rwa [idle]
    · exact event _ _ kept happened
  · cases c with
    | powerOn =>
      cases done
      exact restart _ kept
    | resetPin =>
      cases done
      show P (if s.dev.powered then _ else _)
      split
      · exact restart _ kept
      · exact kept
    | powerLoss =>
      cases done
      show P (if s.dev.powered then _ else _)
      split
      · exact loss _ kept
      · exact kept
    | endOfInit x y strap inputs =>
      cases done
      show P (s.dev.endOfInit x y strap inputs)
      by_cases inInit : s.dev.lct.lineState = .init
      · exact init _ _ _ _ _ inInit kept
      · have idle : s.dev.endOfInit x y strap inputs = s.dev := by simp [Device.endOfInit, inInit]
        rwa [idle]
    | tick =>
      cases done
      exact tick _ kept
    | sealWriteComplete =>
      cases done
      show P (s.dev.event Device.sealWriteComplete)
      unfold Device.event
      split
      · rename_i live
        have service := Device.live_iff.1 live
        have after := service.of_touches (Device.sealWriteComplete_touches s.dev) (by decide) (by decide)
        refine event _ _ ?_ after.ask
        by_cases flight : s.dev.ccu.committing = true
        · exact sealed _ service flight kept
        · have idle : s.dev.sealWriteComplete = s.dev := by simp [Device.sealWriteComplete, flight]
          rwa [idle]
      · exact kept
    | discardedFrame port bytes =>
      cases done
      exact Device.takeBytes_keeps event port bytes _ kept
    | _ => exact absurd rfl one

/-- What every command keeps, every step keeps. -/
theorem step_keeps (event : ∀ d t, P d → Device.Event d t → P t)
    (sealed : ∀ d, d.InService → d.ccu.committing = true → P d → P d.sealWriteComplete)
    (tick : ∀ d, P d → P d.tick) (restart : ∀ d, P d → P d.restart)
    (loss : ∀ d, P d → P { d.restart with powered := false })
    (init : ∀ a b strap inputs d, d.lct.lineState = .init → P d → P (d.endOfInit a b strap inputs))
    {s t : State} (done : step s = .next t) (kept : P s.dev) : P t.dev := by
  unfold step at done
  split at done
  · cases done
    exact kept
  · exact exec_keeps event sealed tick restart loss init done kept

end

end Sys2Proof.Machine
end

section
/-!
PROOF. The belt (O54): the mark stays ahead and the outstanding lines in order through every change of the belt unit.
-/

namespace Sys2Proof.Machine

theorem Bpu.forward_markAhead {b : Bpu} (ahead : b.markAhead) : b.forward.markAhead := by
  unfold Bpu.markAhead Bpu.forward Bpu.newBelt at *
  dsimp only
  split
  · rename_i at'
    rw [beq_iff_eq] at at'
    rw [at', BitVec.sub_self]
    decide
  · rename_i apart
    have apart : b.position ≠ b.mark := by simpa using apart
    bv_omega

theorem Bpu.backward_markAhead {b : Bpu} (ahead : b.markAhead) : b.backward.markAhead := by
  unfold Bpu.markAhead Bpu.backward at *
  dsimp only
  split <;> bv_omega

/-- The newest of lines in order are in order. -/
theorem Bpu.outstandingInOrder.retired {b : Bpu} {l : List Outstanding} (order : b.outstandingInOrder)
    (newest : l <:+ b.outstanding) : Bpu.outstandingInOrder { b with outstanding := l } := by
  unfold Bpu.outstandingInOrder at *
  dsimp only
  match found : b.outstanding with
  | [] =>
    rw [found] at newest
    rw [List.eq_nil_of_suffix_nil newest]
    trivial
  | [o] =>
    rw [found, List.suffix_cons_iff, List.suffix_nil] at newest
    rw [found] at order
    rcases newest with rfl | rfl
    · exact order
    · trivial
  | [o, p] =>
    rw [found, List.suffix_cons_iff, List.suffix_cons_iff, List.suffix_nil] at newest
    rw [found] at order
    rcases newest with rfl | rfl | rfl
    · exact order
    · exact order.2
    · trivial
  | _ :: _ :: _ :: _ => rw [found] at order; exact order.elim

/-- The line that a trigger joins is next in order behind the one line left. -/
theorem Bpu.outstandingInOrder.triggered {b : Bpu} (order : b.outstandingInOrder) :
    Bpu.outstandingInOrder { b with
      outstanding := olderRetired b.outstanding ++ [⟨b.nextLine, b.position⟩], nextLine := b.nextLine + 1 } := by
  unfold Bpu.outstandingInOrder at *
  dsimp only
  match found : b.outstanding with
  | [] => rfl
  | [o] =>
    rw [found] at order
    exact ⟨order, rfl⟩
  | [o, p] =>
    rw [found] at order
    exact ⟨order.2, rfl⟩
  | _ :: _ :: _ :: _ => rw [found] at order; exact order.elim

theorem Bpu.Moves.markAhead {load : Nat} {b m : Bpu} (h : Bpu.Moves load b m) (ahead : b.markAhead) : m.markAhead := by
  cases h with
  | free | retired | counted | triggered => exact ahead
  | forward => exact Bpu.forward_markAhead ahead
  | backward => exact Bpu.backward_markAhead ahead
  | lineReset => exact (by decide : ((0 : Position) - 0).toNat < 2 ^ 47)

theorem Bpu.Moves.outstandingInOrder {load : Nat} {b m : Bpu} (h : Bpu.Moves load b m) (order : b.outstandingInOrder) :
    m.outstandingInOrder := by
  cases h with
  | free | forward | backward | counted => exact order
  | retired newest => exact order.retired newest
  | triggered => exact order.triggered
  | lineReset => trivial

/-- What the changes of the belt unit keep, what a command can do keeps. -/
theorem Device.Runs.bpu_keeps {offers replies : Bool} {P : Bpu → Prop} (moves : ∀ load b m, Bpu.Moves load b m → P b → P m) {d t : Device}
    (h : Device.Runs offers replies d t) : P d.bpu → P t.bpu := by
  induction h with
  | refl | conditioner | tracker | evaluator | heads | packs | control | custody | drawn | waits => exact id
  | trans _ _ first second => exact second ∘ first
  | belt h => exact moves _ _ _ h
  | link h =>
    have same := h.touches .bpu (by decide)
    exact fun kept => same.symm ▸ kept
  | answered message _ _ ih =>
    rw [show _ = _ from Device.placeReply_touches message _ .bpu (by decide)]
    exact ih
  | served message _ _ ih =>
    rw [show _ = _ from Device.placeReply_touches message _ .bpu (by decide)]
    exact ih
  | lineOperation _ _ _ _ _ ih => exact ih

/-- The belt of a device just reset is in order. -/
theorem Bpu.reset_inOrder : Bpu.reset.markAhead ∧ Bpu.reset.outstandingInOrder := ⟨by unfold Bpu.markAhead; decide, trivial⟩

/-- The end of INIT samples the encoder and loads the divider, and no more of the belt. -/
theorem Device.endOfInit_bpu (a b strap : Bool) (inputs : BitVec 8) (d : Device) :
    ∃ x y load, (d.endOfInit a b strap inputs).bpu = { d.bpu with encA := x, encB := y, divider := load } := by
  unfold Device.endOfInit
  dsimp only
  split
  · rw [show _ = _ from Device.askEventPlace_touches _ .bpu (by decide)]
    split <;> exact ⟨a, b, _, rfl⟩
  · exact ⟨_, _, _, rfl⟩

/-- Settles O54: every change of the belt unit keeps the mark ahead and the lines in order. -/
theorem stepsKeepTheMarkAheadAndTheLinesInOrder : Obligations.StepsKeepTheMarkAheadAndTheLinesInOrder := by
  unfold Obligations.StepsKeepTheMarkAheadAndTheLinesInOrder
  intro s t ahead order done
  refine step_keeps (P := fun d => d.bpu.markAhead ∧ d.bpu.outstandingInOrder) ?event ?sealed ?tick ?restart ?loss ?init done
    ⟨ahead, order⟩
  case event =>
    intro d e kept happened
    obtain ⟨offers, runs⟩ := happened.runs
    exact runs.bpu_keeps (P := fun b => b.markAhead ∧ b.outstandingInOrder)
      (fun _ _ _ moved kept => ⟨moved.markAhead kept.1, moved.outstandingInOrder kept.2⟩) kept
  case sealed =>
    intro d _ flight kept
    unfold Device.sealWriteComplete
    rw [if_pos flight]
    exact kept
  case tick =>
    intro d kept
    unfold Device.tick
    split <;> exact kept
  case restart => exact fun d _ => Bpu.reset_inOrder
  case loss => exact fun d _ => Bpu.reset_inOrder
  case init =>
    intro a b strap inputs d _ kept
    obtain ⟨x, y, load, belt⟩ := d.endOfInit_bpu a b strap inputs
    rw [belt]
    exact kept

end Sys2Proof.Machine
end

section
/-!
PROOF. The tables (O56): every change keeps the sizes of the part's tables and every area of the region table within its 64 bits.
-/

namespace Sys2Proof.Machine

/-! ### The end of INIT -/

/-- The device as INIT leaves it, before the LCT's first ask (R156, R176, R186). -/
def Device.opened (a b strap : Bool) (inputs : BitVec 8) (d : Device) : Device :=
  { d with
    ccu := d.ccu.load strap
    bpu := { d.bpu with encA := a, encB := b, divider := (d.ccu.load strap).dividerLoad }
    lct := { d.lct with lineState := .idle, inputs := initialInputs inputs } }

theorem Device.endOfInit_eq {d : Device} (powered : d.powered = true) (init : d.lct.lineState = .init) (a b strap : Bool)
    (inputs : BitVec 8) : d.endOfInit a b strap inputs =
      Device.askEventPlace (if (d.opened a b strap inputs).ccu.valid then d.opened a b strap inputs
        else (d.opened a b strap inputs).raise .calInvalid) := by
  unfold Device.endOfInit
  rw [if_pos (by simp [powered, init])]
  rfl

/-- The end of INIT is idle, or it is the device as INIT leaves it with the latch of an invalid store and the LCT's ask. -/
theorem Device.endOfInit_cases {offers : Bool} (a b strap : Bool) (inputs : BitVec 8) (d : Device) :
    d.endOfInit a b strap inputs = d ∨
      (d.lct.lineState = .init ∧ Device.Runs offers true (d.opened a b strap inputs) (d.endOfInit a b strap inputs)) := by
  by_cases powered : d.powered = true
  · by_cases init : d.lct.lineState = .init
    · refine .inr ⟨init, ?_⟩
      rw [Device.endOfInit_eq powered init]
      split
      · exact Device.askEventPlace_runs _
      · exact (Device.Runs.raise _ _).trans (Device.askEventPlace_runs _)
    · exact .inl (by simp [Device.endOfInit, init])
  · exact .inl (by simp [Device.endOfInit, powered])

/-! ### The sizes of the calibration custody -/

/-- The sizes of the lists of the calibration custody (R35, R177, R179). -/
structure Ccu.Sized (c : Ccu) : Prop where
  setArea : c.store.setArea.length = 3207
  active : c.active.length = 3207
  prefixSums : c.prefixSums.length = 1601
  working : c.working.length = 3207
  segments : c.segments.length = 16

theorem Device.Sized.ccu {d : Device} (h : d.Sized) : d.ccu.Sized :=
  ⟨h.setArea, h.active, h.prefixSums, h.working, h.segments⟩

theorem Device.Sized.withCcu {d : Device} (h : d.Sized) {c : Ccu} (sized : c.Sized) : Device.Sized { d with ccu := c } :=
  { h with setArea := sized.setArea, active := sized.active, prefixSums := sized.prefixSums, working := sized.working,
           segments := sized.segments }

theorem writeWords_length {start : Nat} {words : List Nat} {set : List (Option Nat)} (inside : start + words.length ≤ set.length) :
    (writeWords start words set).length = set.length := by
  simp only [writeWords, List.length_append, List.length_take, List.length_map, List.length_drop]
  omega

theorem prefixFrom_length : ∀ (sum : Nat) (set : List (Option Nat)), (prefixFrom sum set).length = set.length + 1
  | _, [] => rfl
  | sum, w :: rest => congrArg (· + 1) (prefixFrom_length (sum + w.getD 0) rest)

theorem prefixSumsOf_length {set : List (Option Nat)} (sized : set.length = 3207) : (prefixSumsOf set).length = 1601 := by
  rw [prefixSumsOf, prefixFrom_length, List.length_take, sized]
  rfl

/-- A segment of a table lies within the set (R177, R179). -/
theorem CalTable.segment_inside {t : CalTable} {segment : Nat} (inside : segment < t.segments) :
    t.start segment + t.words segment ≤ 3207 := by
  cases t with
  | widths =>
    simp only [CalTable.segments, CalTable.start, CalTable.words] at *
    split_ifs <;> omega
  | mask =>
    simp only [CalTable.segments, CalTable.start, CalTable.words] at *
    omega
  | conditioning => exact (by decide : 3200 + 7 ≤ 3207)

@[simp] theorem CalStore.setSeal_setArea (cell : Nat) (s : Option Seal) (st : CalStore) :
    (st.setSeal cell s).setArea = st.setArea := by
  unfold CalStore.setSeal
  split <;> rfl

@[simp] theorem CalStore.setSeal_lockCell (cell : Nat) (s : Option Seal) (st : CalStore) :
    (st.setSeal cell s).lockCell = st.lockCell := by
  unfold CalStore.setSeal
  split <;> rfl

/-- A change of the store that keeps the set area, and of what is not the sets. -/
theorem Ccu.Sized.of_same {c m : Ccu} (h : c.Sized) (setArea : m.store.setArea = c.store.setArea) (active : m.active = c.active)
    (prefixSums : m.prefixSums = c.prefixSums) (working : m.working = c.working) (segments : m.segments = c.segments) :
    m.Sized := ⟨setArea ▸ h.setArea, active ▸ h.active, prefixSums ▸ h.prefixSums, working ▸ h.working, segments ▸ h.segments⟩

theorem Ccu.Sized.promoteIfPending {c : Ccu} (h : c.Sized) : c.promoteIfPending.Sized := by
  unfold Ccu.promoteIfPending
  split
  · exact h.of_same rfl rfl rfl rfl rfl
  · exact h

theorem Ccu.Moves.sized {draws : Nat} {c m : Ccu} (h : Ccu.Moves draws c m) (sized : c.Sized) : m.Sized := by
  cases h with
  | loaded t _ _ inside length _ =>
    have fits := CalTable.segment_inside inside
    rw [← length, ← sized.working] at fits
    exact { sized with
      working := (writeWords_length fits).trans sized.working
      segments := List.length_set.trans sized.segments }
  | started =>
    refine { sized with setArea := ?_ }
    exact (erasedArea_length _ _).trans ((congrArg List.length (CalStore.setSeal_setArea _ _ _)).trans sized.setArea)
  | failed =>
    exact Ccu.Sized.promoteIfPending (sized.of_same (CalStore.setSeal_setArea _ _ _) rfl rfl rfl rfl)
  | lockNext => exact sized.of_same rfl rfl rfl rfl rfl
  | lineReset =>
    unfold Ccu.lineReset
    split
    · exact sized.of_same rfl rfl rfl rfl rfl
    · exact sized.of_same rfl rfl rfl rfl rfl

theorem Ccu.writeOn_sized (n : Nat) {c : Ccu} (sized : c.Sized) : (c.writeOn n).Sized :=
  { sized with setArea := (c.writtenArea_length n).trans sized.working }

theorem Ccu.eraseOn_sized (draws : Nat) {c : Ccu} (sized : c.Sized) : (c.eraseOn draws).Sized :=
  { sized with setArea := (erasedArea_length draws c.store.setArea).trans sized.setArea }

theorem Ccu.storeWorks_sized (draws : Nat) {c : Ccu} (sized : c.Sized) : (c.storeWorks draws).Sized := by
  rcases c.storeWorks_cases draws with ⟨_, same⟩ | ⟨_, same⟩ | ⟨_, n, _, same⟩ | ⟨_, n, _, _, _, same⟩
  · exact same.symm ▸ sized
  · exact same.symm ▸ Ccu.eraseOn_sized draws sized
  · exact same.symm ▸ Ccu.writeOn_sized n sized
  · exact same.symm ▸ Ccu.writeOn_sized n sized

theorem Ccu.completeCommit_sized {c : Ccu} (sized : c.Sized) : c.completeCommit.Sized :=
  ⟨sized.working, sized.working, prefixSumsOf_length sized.working, sized.working, List.length_replicate⟩

theorem Ccu.load_sized (strap : Bool) {c : Ccu} (sized : c.Sized) : (c.load strap).Sized := by
  have working : (if c.store.isValid then c.store.setArea else c.store.setArea.map fun _ => none).length = 3207 := by
    split
    · exact sized.setArea
    · exact (List.length_map _).trans sized.setArea
  have area : (c.load strap).store.setArea = c.store.setArea := by
    unfold Ccu.load Ccu.applyStrap Ccu.promoteLock
    dsimp only
    split <;> rfl
  exact ⟨area ▸ sized.setArea, sized.setArea, prefixSumsOf_length sized.setArea, working, List.length_replicate⟩

/-! ### The sizes of the device -/

theorem Device.Sized.of_touches {ps : List Block} {d t : Device} (sized : d.Sized) (h : Touches ps d t)
    (other : (ps.all fun b => [Block.powered, .bpu, .lcn, .lnk, .dec, .draws].contains b) = true) : t.Sized := by
  have all := h.weaken other
  have rtk : t.rtk = d.rtk := all .rtk (by decide)
  have hev : t.hev = d.hev := all .hev (by decide)
  have sth : t.sth = d.sth := all .sth (by decide)
  have pku : t.pku = d.pku := all .pku (by decide)
  have lct : t.lct = d.lct := all .lct (by decide)
  have ccu : t.ccu = d.ccu := all .ccu (by decide)
  exact
    { regions := rtk ▸ sized.regions, classes := hev ▸ sized.classes, records := hev ▸ sized.records
      headTable := sth ▸ sized.headTable, heads := sth ▸ sized.heads, packs := pku ▸ sized.packs
      inputTable := lct ▸ sized.inputTable, inputs := lct ▸ sized.inputs, latches := lct ▸ sized.latches
      mask := lct ▸ sized.mask, setArea := ccu ▸ sized.setArea, active := ccu ▸ sized.active
      prefixSums := ccu ▸ sized.prefixSums, working := ccu ▸ sized.working, segments := ccu ▸ sized.segments }

theorem Device.Sized.withRtk {d : Device} (h : d.Sized) {k : Rtk} (size : k.table.length = d.rtk.table.length) :
    Device.Sized { d with rtk := k } := { h with regions := size.trans h.regions }

theorem Rtk.Moves.size {queue : List QueueEntry} {k m : Rtk} (h : Rtk.Moves queue k m) (size : k.table.length = 64) :
    m.table.length = 64 := by
  cases h with
  | table _ same _ => exact same.trans size
  | taken | replayed | ended | flushed => exact size
  | lineReset => simp [Rtk.lineReset, Rtk.reset]

theorem Sth.Moves.sized {offers : Bool} {s m : Sth} (h : Sth.Moves offers s m)
    (sized : (∀ t, s.table = some t → t.length = 4) ∧ s.heads.length = 4) :
    (∀ t, m.table = some t → t.length = 4) ∧ m.heads.length = 4 := by
  cases h with
  | head => exact ⟨sized.1, List.length_set.trans sized.2⟩
  | lineReset => exact ⟨sized.1, (List.length_map _).trans sized.2⟩
  | load four _ =>
    refine ⟨fun t same => Option.some.inj same ▸ four, ?_⟩
    rw [List.length_zipWith, four, sized.2]
    rfl

theorem Device.Runs.sized {offers replies : Bool} {d t : Device} (h : Device.Runs offers replies d t) : d.Sized → t.Sized := by
  induction h with
  | refl => exact id
  | trans _ _ first second => exact second ∘ first
  | belt | conditioner | drawn => exact fun sized => { sized with }
  | tracker h => exact fun sized => { sized with regions := h.size sized.regions }
  | evaluator h =>
    intro sized
    obtain ⟨records, classes⟩ := h ⟨sized.records, sized.classes⟩
    exact { sized with records := records, classes := classes }
  | heads h =>
    intro sized
    obtain ⟨headTable, heads⟩ := h.sized ⟨sized.headTable, sized.heads⟩
    exact { sized with headTable := headTable, heads := heads }
  | packs h => exact fun sized => { sized with packs := h sized.packs }
  | control h =>
    exact fun sized => { sized with
      inputTable := h.table sized.inputTable, inputs := h.inputs.trans sized.inputs
      latches := h.latches.trans sized.latches, mask := h.mask.trans sized.mask }
  | custody h => exact fun sized => sized.withCcu (h.sized sized.ccu)
  | link h => exact fun sized => sized.of_touches h.touches rfl
  | answered message _ _ ih => exact fun sized => (ih sized).of_touches (Device.placeReply_touches message _) rfl
  | waits => exact fun sized => { sized with }
  | served message _ _ ih =>
    intro sized
    have performed := ih { sized with }
    refine Device.Sized.of_touches (ps := [.lnk, .dec]) ?_ (Device.placeReply_touches message _) rfl
    exact { performed with }
  | lineOperation c _ _ _ _ ih =>
    intro sized
    have performed := ih (sized.withRtk (Rtk.stages2to7_tableKept c _ _).size)
    exact performed.withRtk (Rtk.stage9_tableKept c _).size

theorem Ccu.reset_sized {store : CalStore} (sized : store.setArea.length = 3207) : (Ccu.reset store).Sized :=
  ⟨sized, List.length_replicate, List.length_replicate, List.length_replicate, List.length_replicate⟩

/-- A device just reset has its sizes when its store has. -/
theorem Device.reset_sized {store : CalStore} (sized : store.setArea.length = 3207) (draws : Nat) :
    (Device.reset store draws).Sized where
  regions := by simp [Device.reset, Rtk.reset]
  classes _ some := nomatch some
  records := List.length_replicate
  headTable _ some := nomatch some
  heads := List.length_replicate
  packs := List.length_replicate
  inputTable := List.length_replicate
  inputs := List.length_replicate
  latches := List.length_replicate
  mask := List.length_replicate
  setArea := sized
  active := List.length_replicate
  prefixSums := List.length_replicate
  working := List.length_replicate
  segments := List.length_replicate

theorem Device.storeAfterCut_setArea {d : Device} (sized : d.ccu.Sized) : d.storeAfterCut.setArea.length = 3207 := by
  unfold Device.storeAfterCut
  repeat' split
  · exact sized.working
  · rw [CalStore.setSeal_setArea]
    exact sized.setArea
  · exact sized.setArea

theorem Device.tick_sized {d : Device} (sized : d.Sized) : d.tick.Sized := by
  unfold Device.tick
  split
  · have store := Ccu.storeWorks_sized d.draws sized.ccu
    exact { sized with
      heads := (List.length_map _).trans sized.heads, inputs := (List.length_map _).trans sized.inputs
      setArea := store.setArea, active := store.active, prefixSums := store.prefixSums, working := store.working
      segments := store.segments }
  · exact sized

theorem Device.sealWriteComplete_sized {d : Device} (sized : d.Sized) : d.sealWriteComplete.Sized := by
  unfold Device.sealWriteComplete
  split
  · have store := (Ccu.completeCommit_sized sized.ccu).promoteIfPending
    exact (sized.withCcu (Ccu.completeCommit_sized sized.ccu)).of_touches (Touches.of_bpu _ _) rfl |>.withCcu store
  · exact sized

theorem Device.endOfInit_sized (a b strap : Bool) (inputs : BitVec 8) {d : Device} (sized : d.Sized) :
    (d.endOfInit a b strap inputs).Sized := by
  rcases Device.endOfInit_cases (offers := false) a b strap inputs d with idle | ⟨_, runs⟩
  · rwa [idle]
  · have inputs8 : (initialInputs inputs).length = 8 := rfl
    exact runs.sized { sized.withCcu (Ccu.load_sized strap sized.ccu) with inputs := inputs8 }

theorem step_sized {s t : State} (sized : s.dev.Sized) (done : step s = .next t) : t.dev.Sized := by
  refine step_keeps (P := Device.Sized) ?event ?sealed ?tick ?restart ?loss ?init done sized
  case event =>
    intro d e sized happened
    obtain ⟨offers, runs⟩ := happened.runs
    exact runs.sized sized
  case sealed => exact fun d _ _ sized => Device.sealWriteComplete_sized sized
  case tick => exact fun d sized => Device.tick_sized sized
  case restart => exact fun d sized => Device.reset_sized (Device.storeAfterCut_setArea sized.ccu) _
  case loss =>
    intro d sized
    have reset := Device.reset_sized (Device.storeAfterCut_setArea sized.ccu) (d.draws + 1)
    exact { reset with }
  case init => exact fun a b strap inputs d _ sized => Device.endOfInit_sized a b strap inputs sized

/-! ### The areas of the region table -/

theorem Rtk.reset_areasFit : Rtk.reset.areasFit := by
  intro r held
  obtain ⟨i, _, rfl⟩ := List.mem_map.1 held
  exact Nat.zero_le _

theorem Rtk.areasFit_of_table {k m : Rtk} (same : m.table = k.table) (fit : k.areasFit) : m.areasFit :=
  fun r held => fit r (same ▸ held)

theorem Rtk.Moves.areasFit {queue : List QueueEntry} {k m : Rtk} (h : Rtk.Moves queue k m) (fit : k.areasFit) : m.areasFit := by
  cases h with
  | table _ _ areas => exact areas fit
  | taken | replayed | ended | flushed => exact fit
  | lineReset => exact Rtk.areasFit_of_table rfl Rtk.reset_areasFit

theorem Device.Runs.areasFit {offers replies : Bool} {d t : Device} (h : Device.Runs offers replies d t) : d.rtk.areasFit → t.rtk.areasFit := by
  induction h with
  | refl | belt | conditioner | evaluator | heads | packs | control | custody | drawn => exact id
  | trans _ _ first second => exact second ∘ first
  | tracker h => exact h.areasFit
  | link h => exact fun fit => Rtk.areasFit_of_table (congrArg Rtk.table (h.touches .rtk (by decide))) fit
  | answered message _ _ ih =>
    exact fun fit => Rtk.areasFit_of_table (congrArg Rtk.table (Device.placeReply_touches message _ .rtk (by decide))) (ih fit)
  | waits => exact Rtk.areasFit_of_table rfl
  | served message _ _ ih =>
    exact fun fit => Rtk.areasFit_of_table (congrArg Rtk.table (Device.placeReply_touches message _ .rtk (by decide)))
      (ih (Rtk.areasFit_of_table rfl fit))
  | lineOperation c _ _ _ _ ih =>
    exact fun fit => (Rtk.stage9_tableKept c _).areas (ih ((Rtk.stages2to7_tableKept c _ _).areas fit))

theorem step_areasFit {s t : State} (fit : s.dev.rtk.areasFit) (done : step s = .next t) : t.dev.rtk.areasFit := by
  refine step_keeps (P := fun d => d.rtk.areasFit) ?event ?sealed ?tick ?restart ?loss ?init done fit
  case event =>
    intro d e fit happened
    obtain ⟨offers, runs⟩ := happened.runs
    exact runs.areasFit fit
  case sealed =>
    exact fun d _ _ fit => Rtk.areasFit_of_table (congrArg Rtk.table (Device.sealWriteComplete_touches d .rtk (by decide))) fit
  case tick =>
    intro d fit
    unfold Device.tick
    split <;> exact fit
  case restart => exact fun d _ => Rtk.reset_areasFit
  case loss => exact fun d _ => Rtk.reset_areasFit
  case init =>
    intro a b strap inputs d _ fit
    rcases Device.endOfInit_cases (offers := false) a b strap inputs d with idle | ⟨_, runs⟩
    · rwa [idle]
    · exact runs.areasFit fit

/-- Settles O56: every change keeps the sizes of the tables, and the table operations keep the areas within 64 bits. -/
theorem stepsKeepTheTableSizes : Obligations.StepsKeepTheTableSizes :=
  ⟨fun _ _ sized done => step_sized sized done, fun _ _ fit done => step_areasFit fit done⟩

end Sys2Proof.Machine
end

section
/-!
PROOF. The line queue and the lines (O55): the queue stays in bounds, the tracker is between its steps after each of them, and the runs of
every line lie apart, so that the gaps between them are not empty.
-/

namespace Sys2Proof.Machine

/-! ### The gaps that a line operation leaves -/

theorem Rtk.tableOnly.cur {k m : Rtk} (h : k.tableOnly m) : m.cur = k.cur := by rw [h]

theorem Rtk.matchRuns_gaps (c : LineContext) (runs : List Run) (k : Rtk) :
    (runs.foldl (Rtk.matchRun c) k).cur.gaps = k.cur.gaps := by
  induction runs generalizing k with
  | nil => rfl
  | cons r runs ih =>
    have joined := (Rtk.joinSpan_tableOnly c .leather (k.rootsOver c.diagJoin k.prev.runs r.first r.last) r.first r.last false k).cur
    have same := congrArg LineList.gaps joined
    have one : (k.matchRun c r).cur.gaps = k.cur.gaps := same
    exact (ih (k.matchRun c r)).trans one

theorem Rtk.matchGaps_gaps (c : LineContext) (gaps : List Run) (k : Rtk) :
    spanShape (gaps.foldl (Rtk.matchGap c) k).cur.gaps =
      spanShape k.cur.gaps ++ gaps.map fun r => (r.first, r.last, r.width) := by
  induction gaps generalizing k with
  | nil => simp
  | cons g gaps ih =>
    have joined := (Rtk.joinSpan_tableOnly c .gap (k.rootsOver c.diagJoin k.prev.gaps g.first g.last) g.first g.last
      (coveredBy k.prev.runs g.first g.last).isNone k).cur
    have one : spanShape (k.matchGap c g).cur.gaps = spanShape k.cur.gaps ++ [(g.first, g.last, g.width)] := by
      unfold Rtk.matchGap
      dsimp only
      rw [joined]
      simp [spanShape]
    rw [List.foldl_cons, ih, one]
    simp

theorem Rtk.stage4_gaps (c : LineContext) (k : Rtk) :
    spanShape (k.stage4 c).cur.gaps =
      spanShape k.cur.gaps ++ (gapsOf c.sums k.cur.runs).map fun r => (r.first, r.last, r.width) := by
  have accumulated := Rtk.tableOnly_fold (Rtk.accumulate_tableOnly c)
    ((gapsOf c.sums k.cur.runs).foldl (Rtk.matchGap c) k).cur.gaps ((gapsOf c.sums k.cur.runs).foldl (Rtk.matchGap c) k)
  unfold Rtk.stage4
  dsimp only
  rw [accumulated.cur, Rtk.matchGaps_gaps]

theorem Rtk.relabel_spanShape (k : Rtk) (l : List Span) : spanShape (l.map k.relabelSpan) = spanShape l := by
  unfold spanShape
  rw [List.map_map]
  refine List.map_congr_left fun s _ => ?_
  unfold Function.comp Rtk.relabelSpan
  split <;> rfl

theorem Rtk.stages5to7_gaps (now : Word32) (k : Rtk) :
    spanShape ((k.stage5.stage6 now).stage7 false).cur.gaps = spanShape k.cur.gaps := by
  have closed : k.stage5.tableOnly (k.stage5.stage6 now) := Rtk.tableOnly_fold (fun k i => Rtk.closeGap_tableOnly now k i) _ _
  have released : k.stage5.cur = k.relabel k.cur :=
    (Rtk.tableOnly_fold (fun (k : Rtk) (i : Nat) => (rfl : k.tableOnly (k.release i))) _ _).cur
  show spanShape (k.stage5.stage6 now).cur.gaps = _
  rw [closed.cur, released]
  exact k.relabel_spanShape k.cur.gaps

/-- The gaps of the present line after stages 2 to 7 are those between its runs. -/
theorem Rtk.stages2to7_gaps (c : LineContext) (runs : List Run) {k : Rtk} (empty : k.cur = ⟨[], []⟩) :
    ∃ spans : List Span, spanShape spans = (runs.map fun r => (r.first, r.last, r.width)) ∧
      spanShape (k.stages2to7 c runs).cur.gaps = (gapsOf c.sums spans).map fun r => (r.first, r.last, r.width) := by
  have accumulated := (Rtk.stage3_tableOnly c (runs.foldl (Rtk.matchRun c) k)).cur
  have shape := (Rtk.matchRuns_shape c runs k).2
  have none := Rtk.matchRuns_gaps c runs k
  rw [empty] at shape none
  refine ⟨(runs.foldl (Rtk.matchRun c) k).cur.runs, shape, ?_⟩
  unfold Rtk.stages2to7
  dsimp only
  rw [Rtk.stages5to7_gaps, Rtk.stage4_gaps, accumulated, none]
  rfl

theorem Rtk.stages2to7_runs (c : LineContext) (runs : List Run) {k : Rtk} (empty : k.cur = ⟨[], []⟩) :
    spanShape (k.stages2to7 c runs).cur.runs = runs.map fun r => (r.first, r.last, r.width) := by
  have accumulated := (Rtk.stage3_tableOnly c (runs.foldl (Rtk.matchRun c) k)).cur
  have shape := (Rtk.matchRuns_shape c runs k).2
  have closed := (Rtk.stages4to7_shape c ((runs.foldl (Rtk.matchRun c) k).stage3 c)).2
  rw [accumulated, shape, empty] at closed
  exact closed

/-! ### Spans apart -/

theorem spanShape_ends (l : List Span) : (l.map fun r => (r.first, r.last)) = (spanShape l).map fun x => (x.1, x.2.1) := by
  rw [spanShape, List.map_map]
  rfl

theorem gapsOf_ordered (sums : List Nat) : ∀ {l : List Span}, spansApart (l.map fun r => (r.first, r.last)) →
    ∀ g ∈ gapsOf sums l, g.first ≤ g.last
  | [], _ => fun g none => absurd none List.not_mem_nil
  | [_], _ => fun g none => absurd none List.not_mem_nil
  | r :: q :: rest, apart => by
    obtain ⟨ordered, behind⟩ := apart
    rw [List.map_cons, List.pairwise_cons] at behind
    intro g held
    rcases List.mem_cons.1 held with rfl | later
    · have gap : r.last + 1 < q.first := behind.1 _ (List.mem_map.2 ⟨q, List.mem_cons_self, rfl⟩)
      show r.last + 1 ≤ q.first - 1
      omega
    · exact gapsOf_ordered sums ⟨fun x held => ordered x (List.mem_cons_of_mem _ held), behind.2⟩ g later

/-- Runs of one shape lie apart together. -/
theorem spansApart_of_shape {l m : List Span} (same : spanShape l = spanShape m)
    (apart : spansApart (m.map fun r => (r.first, r.last))) : spansApart (l.map fun r => (r.first, r.last)) := by
  rwa [spanShape_ends, same, ← spanShape_ends]

theorem spanShape_runs (runs : List Run) :
    (runs.map fun r => (r.first, r.last)) = (runs.map fun r => (r.first, r.last, r.width)).map fun x => (x.1, x.2.1) := by
  rw [List.map_map]
  rfl

/-- The gaps of a line whose runs lie apart are not empty. -/
theorem Rtk.stages2to7_gaps_ordered (c : LineContext) {runs : List Run} {k : Rtk} (empty : k.cur = ⟨[], []⟩)
    (apart : spansApart (runs.map fun r => (r.first, r.last))) : ∀ g ∈ (k.stages2to7 c runs).cur.gaps, g.first ≤ g.last := by
  obtain ⟨spans, shape, gaps⟩ := Rtk.stages2to7_gaps c runs empty
  have spansApart : spansApart (spans.map fun r => (r.first, r.last)) := by
    rwa [spanShape_ends, shape, ← spanShape_runs]
  intro g held
  have shaped : (g.first, g.last, g.width) ∈ spanShape (k.stages2to7 c runs).cur.gaps := List.mem_map.2 ⟨g, held, rfl⟩
  rw [gaps] at shaped
  obtain ⟨r, between, same⟩ := List.mem_map.1 shaped
  have ordered := gapsOf_ordered c.sums spansApart r between
  simp only [Prod.mk.injEq] at same
  rwa [same.1, same.2.1] at ordered

/-! ### The tracker between its steps -/

theorem Rtk.betweenSteps_of_same {k m : Rtk} (cur : m.cur = k.cur) (work : m.work = k.work) (h : k.betweenSteps) :
    m.betweenSteps := by rwa [Rtk.betweenSteps, cur, work]

theorem Rtk.betweenSteps_idle {k : Rtk} (cur : k.cur = ⟨[], []⟩) (work : k.work = none) : k.betweenSteps :=
  ⟨cur, fun _ underWay => nomatch work.symm.trans underWay⟩

/-- What a table operation leaves of the tracker. -/
theorem Rtk.tableOnly.lists {k m : Rtk}
    (h : k.tableOnly { m with retryPending := k.retryPending, linesProcessed := k.linesProcessed }) :
    m.cur = k.cur ∧ m.prev = k.prev ∧ m.work = k.work := by
  unfold Rtk.tableOnly at h
  have cur := congrArg Rtk.cur h
  have prev := congrArg Rtk.prev h
  have work := congrArg Rtk.work h
  exact ⟨cur, prev, work⟩

theorem Rtk.Moves.betweenSteps {queue : List QueueEntry} {k m : Rtk} (h : Rtk.Moves queue k m) (between : k.betweenSteps) :
    m.betweenSteps := by
  cases h with
  | table lists _ _ =>
    obtain ⟨cur, _, work⟩ := lists.lists
    exact Rtk.betweenSteps_of_same cur work between
  | taken =>
    refine ⟨between.1, fun w same => Option.some.inj same ▸ ⟨Nat.zero_le _, fun fill => ?_⟩⟩
    rename_i e _
    have replays : QueueEntry.replays e = e.fillsBefore + 1 := by
      unfold QueueEntry.replays
      rw [fill]
    exact replays ▸ Nat.succ_pos _
  | replayed _ left fill => exact ⟨between.1, fun w same => Option.some.inj same ▸ ⟨left, fill⟩⟩
  | ended => exact Rtk.betweenSteps_idle between.1 rfl
  | flushed => exact Rtk.betweenSteps_of_same rfl rfl between
  | lineReset => exact Rtk.betweenSteps_idle rfl rfl

/-- A line operation ends with no present line and the same entry under way. -/
theorem Rtk.stage9_betweenSteps (c : LineContext) {runs : List Run} {k m : Rtk} (lists : (k.stages2to7 c runs).sameLists m)
    (between : k.betweenSteps) : (m.stage9 c).betweenSteps := by
  have work : m.work = k.work := by rw [lists, Rtk.stages2to7_sameRecord c runs k]
  exact ⟨rfl, fun w underWay => between.2 w (work ▸ underWay)⟩

theorem Device.Runs.betweenSteps {offers replies : Bool} {d t : Device} (h : Device.Runs offers replies d t) :
    d.rtk.betweenSteps → t.rtk.betweenSteps := by
  induction h with
  | refl | belt | conditioner | evaluator | heads | packs | control | custody | drawn => exact id
  | trans _ _ first second => exact second ∘ first
  | tracker h => exact h.betweenSteps
  | link h => rw [show _ = _ from h.touches .rtk (by decide)]; exact id
  | answered message _ _ ih => rw [show _ = _ from Device.placeReply_touches message _ .rtk (by decide)]; exact ih
  | waits => exact Rtk.betweenSteps_of_same rfl rfl
  | served message _ _ ih =>
    rw [show _ = _ from Device.placeReply_touches message _ .rtk (by decide)]
    exact fun between => ih (Rtk.betweenSteps_of_same rfl rfl between)
  | lineOperation c _ _ lists _ _ => exact Rtk.stage9_betweenSteps c lists

/-! ### The lines apart -/

/-- The lines that the tracker holds lie apart. -/
structure Rtk.LinesApart (k : Rtk) : Prop where
  prevRuns : spansApart (k.prev.runs.map fun r => (r.first, r.last))
  prevGaps : ∀ g ∈ k.prev.gaps, g.first ≤ g.last
  underWay : ∀ w, k.work = some w → w.entry.content.runsApart

theorem Device.LinesApart.rtk {d : Device} (h : d.LinesApart) : d.rtk.LinesApart := ⟨h.prevRuns, h.prevGaps, h.underWay⟩

theorem Rtk.LinesApart.device {d : Device} (h : d.rtk.LinesApart) (queued : ∀ e ∈ d.lcn.queue, e.content.runsApart) :
    d.LinesApart := ⟨h.prevRuns, h.prevGaps, queued, h.underWay⟩

theorem Rtk.LinesApart.of_same {k m : Rtk} (prev : m.prev = k.prev) (work : m.work = k.work) (h : k.LinesApart) : m.LinesApart :=
  ⟨prev ▸ h.prevRuns, prev ▸ h.prevGaps, work ▸ h.underWay⟩

/-- With no previous line. -/
theorem Rtk.LinesApart.of_empty {k : Rtk} (prev : k.prev = .empty) (underWay : ∀ w, k.work = some w → w.entry.content.runsApart) :
    k.LinesApart := by
  refine ⟨?_, ?_, underWay⟩
  · rw [prev]
    exact ⟨fun r none => absurd none List.not_mem_nil, .nil⟩
  · rw [prev]
    exact fun g none => absurd none List.not_mem_nil

theorem Rtk.Moves.linesApart {queue : List QueueEntry} {k m : Rtk} (h : Rtk.Moves queue k m)
    (queued : ∀ e ∈ queue, e.content.runsApart) (apart : k.LinesApart) : m.LinesApart := by
  cases h with
  | table lists _ _ =>
    obtain ⟨_, prev, work⟩ := lists.lists
    exact apart.of_same prev work
  | taken waits => exact ⟨apart.prevRuns, apart.prevGaps, fun w same => Option.some.inj same ▸ queued _ waits⟩
  | replayed underWay _ _ =>
    refine ⟨apart.prevRuns, apart.prevGaps, fun w same => ?_⟩
    rw [← Option.some.inj same]
    have queued := apart.underWay _ underWay
    exact queued
  | ended => exact ⟨apart.prevRuns, apart.prevGaps, fun w none => nomatch none⟩
  | flushed => exact .of_empty rfl apart.underWay
  | lineReset => exact .of_empty rfl fun w none => nomatch none

/-- The line that a line operation leaves as the previous one. -/
theorem Rtk.stage9_linesApart (c : LineContext) {runs : List Run} {k m : Rtk} (lists : (k.stages2to7 c runs).sameLists m)
    (empty : k.cur = ⟨[], []⟩) (runsApart : spansApart (runs.map fun r => (r.first, r.last))) (apart : k.LinesApart) :
    (m.stage9 c).LinesApart := by
  have work : m.work = k.work := by rw [lists, Rtk.stages2to7_sameRecord c runs k]
  have cur : m.cur = (k.stages2to7 c runs).cur := by rw [lists]
  refine ⟨?_, ?_, fun w underWay => apart.underWay w (work ▸ underWay)⟩
  · show spansApart (m.cur.runs.map fun r => (r.first, r.last))
    rwa [cur, spanShape_ends, Rtk.stages2to7_runs c runs empty, ← spanShape_runs]
  · show ∀ g ∈ m.cur.gaps, g.first ≤ g.last
    rw [cur]
    exact Rtk.stages2to7_gaps_ordered c empty runsApart

/-- The runs that a line operation is performed on lie apart. -/
theorem Rtk.LinesApart.source {k : Rtk} (h : k.LinesApart) {runs : List Run}
    (source : runs = k.prev.runs.map spanRun ∨ ∃ w status, k.work = some w ∧ w.entry.content = .line status runs) :
    spansApart (runs.map fun r => (r.first, r.last)) := by
  rcases source with rfl | ⟨w, status, underWay, content⟩
  · rw [List.map_map]
    exact h.prevRuns
  · have apart := h.underWay w underWay
    rwa [content] at apart

theorem Device.Runs.linesApart {offers replies : Bool} {d t : Device} (h : Device.Runs offers replies d t) :
    d.rtk.betweenSteps → d.LinesApart → t.rtk.LinesApart := by
  induction h with
  | refl | belt | evaluator | heads | packs | control | custody | drawn | conditioner => exact fun _ apart => apart.rtk
  | trans first _ ih ih' =>
    intro between apart
    have queued := fun e held => (first.lcn_moves.entries e held).elim (apart.queued e) id
    exact ih' (first.betweenSteps between) ((ih between apart).device queued)
  | tracker h => exact fun _ apart => h.linesApart apart.queued apart.rtk
  | link h => rw [show _ = _ from h.touches .rtk (by decide)]; exact fun _ apart => apart.rtk
  | answered message _ _ ih => rw [show _ = _ from Device.placeReply_touches message _ .rtk (by decide)]; exact ih
  | waits => exact fun _ apart => { apart.rtk with }
  | served message _ _ ih =>
    rw [show _ = _ from Device.placeReply_touches message _ .rtk (by decide)]
    intro between apart
    exact ih (Rtk.betweenSteps_of_same rfl rfl between) { apart with }
  | lineOperation c source _ lists _ _ =>
    exact fun between apart => Rtk.stage9_linesApart c lists between.1 (apart.rtk.source source) apart.rtk

/-! ### The steps -/

theorem Device.Runs.queued {offers replies : Bool} {d t : Device} (h : Device.Runs offers replies d t)
    (queued : ∀ e ∈ d.lcn.queue, e.content.runsApart) : ∀ e ∈ t.lcn.queue, e.content.runsApart :=
  fun e held => (h.lcn_moves.entries e held).elim (queued e) id

theorem step_queueInBounds {s t : State} (bounds : s.dev.lcn.queueInBounds) (done : step s = .next t) :
    t.dev.lcn.queueInBounds := by
  have reset : Lcn.reset.queueInBounds := ⟨Nat.zero_le _, Nat.zero_le _, fun fills => absurd fills (Nat.lt_irrefl 0)⟩
  refine step_keeps (P := fun d => d.lcn.queueInBounds) ?event ?sealed ?tick ?restart ?loss ?init done bounds
  case event =>
    intro d e bounds happened
    obtain ⟨offers, runs⟩ := happened.runs
    exact runs.lcn_moves.bounds bounds
  case sealed =>
    intro d _ _ bounds
    rwa [show _ = _ from Device.sealWriteComplete_touches d .lcn (by decide)]
  case tick =>
    intro d bounds
    unfold Device.tick
    split <;> exact bounds
  case restart => exact fun d _ => reset
  case loss => exact fun d _ => reset
  case init =>
    intro a b strap inputs d _ bounds
    rcases Device.endOfInit_cases (offers := false) a b strap inputs d with idle | ⟨_, runs⟩
    · rwa [idle]
    · exact runs.lcn_moves.bounds bounds

theorem step_betweenSteps {s t : State} (between : s.dev.rtk.betweenSteps) (done : step s = .next t) :
    t.dev.rtk.betweenSteps := by
  refine step_keeps (P := fun d => d.rtk.betweenSteps) ?event ?sealed ?tick ?restart ?loss ?init done between
  case event =>
    intro d e between happened
    obtain ⟨offers, runs⟩ := happened.runs
    exact runs.betweenSteps between
  case sealed =>
    intro d _ _ between
    rwa [show _ = _ from Device.sealWriteComplete_touches d .rtk (by decide)]
  case tick =>
    intro d between
    unfold Device.tick
    split <;> exact between
  case restart => exact fun d _ => Rtk.betweenSteps_idle rfl rfl
  case loss => exact fun d _ => Rtk.betweenSteps_idle rfl rfl
  case init =>
    intro a b strap inputs d _ between
    rcases Device.endOfInit_cases (offers := false) a b strap inputs d with idle | ⟨_, runs⟩
    · rwa [idle]
    · exact runs.betweenSteps between

/-- A device just reset holds no line. -/
theorem Device.linesApart_of_reset {d : Device} (rtk : d.rtk = Rtk.reset) (lcn : d.lcn = Lcn.reset) : d.LinesApart := by
  refine Rtk.LinesApart.device (.of_empty (by rw [rtk]; rfl) fun w underWay => ?_) fun e held => ?_
  · rw [rtk] at underWay
    exact nomatch underWay
  · rw [lcn] at held
    exact absurd held List.not_mem_nil

theorem step_linesApart {s t : State} (between : s.dev.rtk.betweenSteps) (apart : s.dev.LinesApart) (done : step s = .next t) :
    t.dev.LinesApart := by
  refine (step_keeps (P := fun d => d.rtk.betweenSteps ∧ d.LinesApart) ?event ?sealed ?tick ?restart ?loss ?init done
    ⟨between, apart⟩).2
  case event =>
    intro d e ⟨between, apart⟩ happened
    obtain ⟨offers, runs⟩ := happened.runs
    exact ⟨runs.betweenSteps between, (runs.linesApart between apart).device (runs.queued apart.queued)⟩
  case sealed =>
    intro d _ _ ⟨between, apart⟩
    have rtk : d.sealWriteComplete.rtk = d.rtk := Device.sealWriteComplete_touches d .rtk (by decide)
    have lcn : d.sealWriteComplete.lcn = d.lcn := Device.sealWriteComplete_touches d .lcn (by decide)
    exact ⟨rtk ▸ between, Rtk.LinesApart.device (rtk ▸ apart.rtk) (lcn ▸ apart.queued)⟩
  case tick =>
    intro d ⟨between, apart⟩
    unfold Device.tick
    split
    · exact ⟨between, { apart with }⟩
    · exact ⟨between, apart⟩
  case restart => exact fun d _ => ⟨Rtk.betweenSteps_idle rfl rfl, Device.linesApart_of_reset rfl rfl⟩
  case loss => exact fun d _ => ⟨Rtk.betweenSteps_idle rfl rfl, Device.linesApart_of_reset rfl rfl⟩
  case init =>
    intro a b strap inputs d _ ⟨between, apart⟩
    rcases Device.endOfInit_cases (offers := false) a b strap inputs d with idle | ⟨_, runs⟩
    · rw [idle]
      exact ⟨between, apart⟩
    · have opened : (d.opened a b strap inputs).LinesApart := { apart with }
      exact ⟨runs.betweenSteps between, (runs.linesApart between opened).device (runs.queued apart.queued)⟩

/-- Settles O55: every change keeps the queue in bounds, the tracker between its steps and the lines apart. -/
theorem stepsKeepTheLineQueueInBounds : Obligations.StepsKeepTheLineQueueInBounds :=
  ⟨fun _ _ bounds between done => ⟨step_queueInBounds bounds done, step_betweenSteps between done⟩,
    fun _ _ between apart done => step_linesApart between apart done⟩

end Sys2Proof.Machine
end

section
/-!
PROOF. The heads (O57): a strike line is high in STRIKING alone, the spacings stay legal, and the queues of the heads rise. A command that
makes no offers takes entries out of a queue, which keeps it rising; one that makes offers puts entries between their neighbours, which
keeps each entry behind the next, and within 2^47 pulses that is the rising order.
-/

namespace Sys2Proof.Machine

/-! ### The strike lines -/

theorem Head.reset_strikeInStriking : Head.reset.strikeInStriking :=
  Head.strikeInStriking_of_low rfl (by decide) (by decide) (by decide)

theorem Head.lineReset_strikeInStriking (h : Head) : h.lineReset.strikeInStriking := by
  have still : h.lineReset.state = .disabled ∨ h.lineReset.state = .idle := (ite_eq_or_eq _ _ _)
  refine Head.strikeInStriking_of_low rfl ?_ (Nat.zero_le _) ?_
  · rcases still with state | state <;> rw [state] <;> decide
  · rcases still with state | state <;> rw [state] <;> exact fun set => absurd set (by decide)

theorem Head.afterLoad_strikeInStriking (t : HeadEntry) {h : Head} (strike : h.strikeInStriking) :
    (h.afterLoad t).strikeInStriking := by
  have still : (h.afterLoad t).state = .idle ∨ (h.afterLoad t).state = .disabled := (ite_eq_or_eq _ _ _)
  refine Head.strikeInStriking_of_low rfl ?_ strike.room ?_
  · rcases still with state | state <;> rw [state] <;> decide
  · rcases still with state | state <;> rw [state] <;> exact fun set => absurd set (by decide)

theorem exists_of_mem_zipWith {α β γ : Type} {f : α → β → γ} {x : γ} : ∀ {t : List α} {l : List β}, x ∈ List.zipWith f t l →
    ∃ a, ∃ b ∈ l, x = f a b
  | a :: t, b :: l, held => by
    rcases List.mem_cons.1 held with rfl | later
    · exact ⟨a, b, List.mem_cons_self, rfl⟩
    · obtain ⟨a, b, old, same⟩ := exists_of_mem_zipWith later
      exact ⟨a, b, List.mem_cons_of_mem _ old, same⟩

theorem getD_of_forall {α : Type} {P : α → Prop} {l : List α} {d : α} (all : ∀ a ∈ l, P a) (default : P d) (n : Nat) :
    P (l.getD n d) := by
  by_cases inside : n < l.length
  · rw [List.getD_eq_getElem _ _ inside]
    exact all _ (List.getElem_mem inside)
  · rwa [List.getD_eq_default _ _ (Nat.le_of_not_lt inside)]

theorem Sth.Moves.strikesInStriking {offers : Bool} {s m : Sth} (h : Sth.Moves offers s m) (strikes : s.strikesInStriking) :
    m.strikesInStriking := by
  cases h with
  | head n strike _ =>
    intro x held
    rcases List.mem_or_eq_of_mem_set held with old | rfl
    · exact strikes x old
    · exact strike (getD_of_forall strikes Head.reset_strikeInStriking n)
  | lineReset =>
    intro x held
    obtain ⟨h, _, rfl⟩ := List.mem_map.1 held
    exact h.lineReset_strikeInStriking
  | load =>
    intro x held
    obtain ⟨e, h, old, rfl⟩ := exists_of_mem_zipWith held
    exact Head.afterLoad_strikeInStriking e (strikes h old)

theorem Sth.Moves.spacingsLegal {offers : Bool} {s m : Sth} (h : Sth.Moves offers s m) (legal : s.spacingsLegal) :
    m.spacingsLegal := by
  cases h with
  | head | lineReset => exact legal
  | load _ spacings => exact fun t same => Option.some.inj same ▸ spacings

/-- What the changes of the heads keep, what a command can do keeps. -/
theorem Device.Runs.sth_keeps {offers replies : Bool} {P : Sth → Prop} (moves : ∀ s m, Sth.Moves offers s m → P s → P m) {d t : Device}
    (h : Device.Runs offers replies d t) : P d.sth → P t.sth := by
  induction h with
  | refl | belt | conditioner | tracker | evaluator | packs | control | custody | drawn | waits => exact id
  | trans _ _ first second => exact second ∘ first
  | heads h => exact moves _ _ h
  | link h =>
    have same := h.touches .sth (by decide)
    exact fun kept => same.symm ▸ kept
  | answered message _ _ ih =>
    rw [show _ = _ from Device.placeReply_touches message _ .sth (by decide)]
    exact ih
  | served message _ _ ih =>
    rw [show _ = _ from Device.placeReply_touches message _ .sth (by decide)]
    exact ih
  | lineOperation _ _ _ _ _ ih => exact ih

/-- What every change of the heads keeps, and the passage of a tick, every step keeps that a reset meets. -/
theorem step_sth_keeps {P : Sth → Prop} (moves : ∀ offers s m, Sth.Moves offers s m → P s → P m)
    (tick : ∀ s : Sth, P s → P { s with heads := s.heads.map Head.tick }) (reset : P .reset) {s t : State}
    (done : step s = .next t) (kept : P s.dev.sth) : P t.dev.sth := by
  refine step_keeps (P := fun d => P d.sth) ?event ?sealed ?tick ?restart ?loss ?init done kept
  case event =>
    intro d e kept happened
    obtain ⟨offers, runs⟩ := happened.runs
    exact runs.sth_keeps (moves offers) kept
  case sealed =>
    intro d _ _ kept
    rwa [show _ = _ from Device.sealWriteComplete_touches d .sth (by decide)]
  case tick =>
    intro d kept
    unfold Device.tick
    split
    · exact tick _ kept
    · exact kept
  case restart => exact fun d _ => reset
  case loss => exact fun d _ => reset
  case init =>
    intro a b strap inputs d _ kept
    rcases Device.endOfInit_cases (offers := false) a b strap inputs d with idle | ⟨_, runs⟩
    · rwa [idle]
    · exact runs.sth_keeps (moves false) kept

/-! ### The rising queues -/

/-- Each entry of a queue fires behind the one in front of it. -/
def queueChained (q : List StampEntry) : Prop := q.IsChain fun a b => 0 < posDiff b.fire a.fire

theorem queueRises.chained {q : List StampEntry} (rises : queueRises q) : queueChained q := rises.isChain

/-- Within 2^47 pulses, entries each behind the next rise. -/
theorem queueChained.rises : ∀ {q : List StampEntry}, queueChained q → queueWithinHalf q → queueRises q
  | [], _, _ => .nil
  | a :: rest, chained, within => by
    obtain ⟨base, near⟩ := within
    have near_a := near a List.mem_cons_self
    have later := queueChained.rises (List.isChain_cons.1 chained).2 ⟨base, fun e held => near e (List.mem_cons_of_mem a held)⟩
    refine .cons (fun x held => ?_) later
    match rest, chained, later with
    | b :: _, chained, later =>
      have next : 0 < posDiff b.fire a.fire := (List.isChain_cons_cons.1 chained).1
      rcases List.mem_cons.1 held with rfl | behind
      · exact next
      · have far : 0 < posDiff x.fire b.fire := (List.pairwise_cons.1 later).1 x behind
        have near_b := near b (List.mem_cons_of_mem a List.mem_cons_self)
        have near_x := near x (List.mem_cons_of_mem a held)
        rw [posDiff_within near_x near_b] at far
        rw [posDiff_within near_b near_a] at next
        rw [posDiff_within near_x near_a]
        omega

/-- An admitted entry stands behind the entry in front of it and in front of the entry behind it (R116, R117). -/
theorem queueChained.insert {e : StampEntry} {q : List StampEntry} {spacing : Nat} (chained : queueChained q)
    (positive : 1 ≤ spacing) (free : crowded spacing e.fire (splitQueue e.fire q).1 (splitQueue e.fire q).2 = false) :
    queueChained ((splitQueue e.fire q).1 ++ e :: (splitQueue e.fire q).2) := by
  have back := splitQueue_back e.fire q
  rw [← splitQueue_append e.fire q] at chained
  obtain ⟨front_chained, back_chained, _⟩ := List.isChain_append.1 chained
  simp only [crowded, Bool.or_eq_false_iff] at free
  refine List.isChain_append.2 ⟨front_chained, List.isChain_cons.2 ⟨fun z first => back z first, back_chained⟩, ?_⟩
  intro x last y first
  obtain rfl : e = y := by simpa using first
  have apart := free.1
  rw [Option.mem_def.1 last] at apart
  have apart : ¬ posDiff e.fire x.fire < spacing := by simpa using apart
  omega

/-- The property of every queue of the heads, kept from the heads to the heads. -/
theorem Sth.Moves.queues {offers : Bool} {Q : List StampEntry → Prop} {s m : Sth} (h : Sth.Moves offers s m) (empty : Q [])
    (moves : ∀ q l, QueueMoves offers s.spacingsLegal q l → Q q → Q l) (all : ∀ x ∈ s.heads, Q x.queue) :
    ∀ x ∈ m.heads, Q x.queue := by
  cases h with
  | head n _ queue =>
    intro x held
    rcases List.mem_or_eq_of_mem_set held with old | rfl
    · exact all x old
    · exact moves _ _ queue (getD_of_forall (P := fun x : Head => Q x.queue) all empty n)
  | lineReset =>
    intro x held
    obtain ⟨h, _, rfl⟩ := List.mem_map.1 held
    exact empty
  | load =>
    intro x held
    obtain ⟨_, h, old, rfl⟩ := exists_of_mem_zipWith held
    exact all h old

theorem QueueMoves.rises {legal : Prop} {q l : List StampEntry} (h : QueueMoves false legal q l) (rises : queueRises q) :
    queueRises l := by
  cases h with
  | same => exact rises
  | cleared => exact .nil
  | fewer fewer _ => exact rises.sublist fewer
  | admitted _ _ _ yes => exact absurd yes Bool.false_ne_true

theorem QueueMoves.chained {legal : Prop} {q l : List StampEntry} (h : QueueMoves true legal q l) (isLegal : legal)
    (chained : queueChained q) : queueChained l := by
  cases h with
  | same => exact chained
  | cleared => exact List.isChain_nil
  | fewer _ no => exact absurd no.symm Bool.false_ne_true
  | admitted e positive free _ => exact chained.insert (positive isLegal) free

/-- After a command, the queues that lie within 2^47 pulses rise. -/
theorem Device.Runs.queuesRise {offers replies : Bool} {d t : Device} (h : Device.Runs offers replies d t) (legal : d.sth.spacingsLegal)
    (rises : ∀ x ∈ d.sth.heads, queueRises x.queue) (within : ∀ x ∈ t.sth.heads, queueWithinHalf x.queue) :
    ∀ x ∈ t.sth.heads, queueRises x.queue := by
  cases offers with
  | false =>
    exact h.sth_keeps (P := fun s => ∀ x ∈ s.heads, queueRises x.queue)
      (fun s m moved all => moved.queues .nil (fun q l moved => moved.rises) all) rises
  | true =>
    have chained := h.sth_keeps (P := fun s => s.spacingsLegal ∧ ∀ x ∈ s.heads, queueChained x.queue)
      (fun s m moved ⟨legal, all⟩ => ⟨moved.spacingsLegal legal,
        moved.queues List.isChain_nil (fun q l moved => moved.chained legal) all⟩)
      ⟨legal, fun x held => (rises x held).chained⟩
    exact fun x held => (chained.2 x held).rises (within x held)

/-- What a step can do to the heads, where no more than one byte of a port is taken. -/
theorem step_sth_cases {s t : State} (one : ∀ port bytes rest, s.pending = .discardedFrame port bytes :: rest → bytes.length ≤ 1)
    (done : step s = .next t) :
    t.dev.sth = s.dev.sth ∨ (∃ offers, Device.Runs offers true s.dev t.dev) ∨ t.dev.sth = .reset ∨
      t.dev.sth = { s.dev.sth with heads := s.dev.sth.heads.map Head.tick } := by
  have event {f : Device → Device} (h : ∀ d, ∃ offers, Device.Runs offers true d (f d)) :
      (s.dev.event f).sth = s.dev.sth ∨ ∃ offers, Device.Runs offers true s.dev (s.dev.event f) := by
    rcases Device.event_cases h s.dev with idle | happened
    · exact .inl (by rw [idle])
    · exact .inr happened.runs
  unfold step at done
  split at done
  · cases done
    exact .inl rfl
  · rename_i c rest front
    by_cases single : oneEvent c = true
    · obtain ⟨f, row, runs⟩ := exec_oneEvent single
      rw [row] at done
      cases done
      exact (event runs).imp_right .inl
    · cases c with
      | powerOn =>
        cases done
        exact .inr (.inr (.inl rfl))
      | resetPin =>
        cases done
        have cut : s.dev.resetPin = _ ∨ s.dev.resetPin = _ := ite_eq_or_eq _ _ _
        rcases cut with cut | idle
        · exact .inr (.inr (.inl (congrArg Device.sth cut)))
        · exact .inl (congrArg Device.sth idle)
      | powerLoss =>
        cases done
        have cut : s.dev.powerLoss = _ ∨ s.dev.powerLoss = _ := ite_eq_or_eq _ _ _
        rcases cut with cut | idle
        · exact .inr (.inr (.inl (congrArg Device.sth cut)))
        · exact .inl (congrArg Device.sth idle)
      | endOfInit x y strap inputs =>
        cases done
        left
        show (s.dev.endOfInit x y strap inputs).sth = _
        unfold Device.endOfInit
        dsimp only
        split
        · rw [show _ = _ from Device.askEventPlace_touches _ .sth (by decide)]
          split <;> rfl
        · rfl
      | tick =>
        cases done
        have passed : s.dev.tick = _ ∨ s.dev.tick = _ := ite_eq_or_eq _ _ _
        rcases passed with passed | idle
        · exact .inr (.inr (.inr (congrArg Device.sth passed)))
        · exact .inl (congrArg Device.sth idle)
      | sealWriteComplete =>
        cases done
        exact .inl (Device.event_touches s.dev (Device.sealWriteComplete_touches s.dev) .sth (by decide))
      | discardedFrame port bytes =>
        cases done
        match bytes, one port bytes rest front with
        | [], _ => exact .inl rfl
        | [b], _ => exact (event (Device.takeByte_runs port b)).imp_right .inl
      | _ => exact absurd rfl single

/-- Settles O57: every change of a head keeps its strike line and its spacings, and the queues rise as R115 has them. -/
theorem stepsKeepStrikeLinesInStriking : Obligations.StepsKeepStrikeLinesInStriking := by
  refine ⟨fun s t strikes done => ?_, fun s t legal done => ?_, fun s t legal rises one done within => ?_⟩
  · refine step_sth_keeps (P := Sth.strikesInStriking) (fun _ _ _ moved => moved.strikesInStriking) ?_ ?_ done strikes
    · intro s strikes x held
      obtain ⟨h, old, rfl⟩ := List.mem_map.1 held
      exact strikes h old
    · intro x held
      rw [List.eq_of_mem_replicate held]
      exact Head.reset_strikeInStriking
  · exact step_sth_keeps (P := Sth.spacingsLegal) (fun _ _ _ moved => moved.spacingsLegal) (fun _ legal => legal)
      (fun _ none => nomatch none) done legal
  · rcases step_sth_cases one done with same | ⟨offers, runs⟩ | reset | ticked
    · rwa [same]
    · exact runs.queuesRise legal rises within
    · rw [reset]
      intro x held
      rw [List.eq_of_mem_replicate held]
      exact .nil
    · rw [ticked]
      intro x held
      obtain ⟨h, old, rfl⟩ := List.mem_map.1 held
      exact rises h old

end Sys2Proof.Machine
end

section
/-!
PROOF. The link (O58). While a request is performed its reply place is not yet taken, and while a waiting one is performed its reservation
stands though it has left the list: the bounds are kept with a number of places spared and a number of reservations taken out.
-/

namespace Sys2Proof.Machine

/-! ### The bounds with places spared -/

/-- The bounds of the link but for the transmitter, with places spared for replies and reservations of requests that have left the
waiting list. -/
structure Device.LinkFits (taken spared : Nat) (d : Device) : Prop where
  up : d.lnk.upFifo.length ≤ 4
  upIdle : d.lnk.upTx = none → d.lnk.upFifo = []
  report : d.lnk.reportFifo.length ≤ 32
  forward : d.lnk.forwardFifo.length ≤ 8
  reply : d.lnk.replyFifo.length + d.dec.reservations + spared ≤ 4
  reserved : d.dec.reservations = d.rtk.waiting.length + taken
  owedBound : d.dec.owed.length ≤ 16
  owedFull : d.dec.owed ≠ [] → d.lnk.replyFifo.length + d.dec.reservations = 4

theorem Device.linkInBounds_iff {d : Device} : d.LinkInBounds ↔ d.LinkFits 0 0 ∧ d.lnk.txSettled := by
  constructor
  · exact fun h => ⟨⟨h.up, h.upIdle, h.report, h.forward, h.reply, h.reserved, h.owedBound, h.owedFull⟩, h.settled⟩
  · exact fun ⟨h, settled⟩ => ⟨h.up, h.upIdle, h.report, h.forward, h.reply, h.reserved, h.owedBound, h.owedFull, settled⟩

section
variable {taken spared : Nat} {d : Device}

/-- With a place spared, no request is owed. -/
theorem Device.LinkFits.notOwed (fits : d.LinkFits taken (spared + 1)) : d.dec.owed = [] := by
  by_contra owed
  have full := fits.owedFull owed
  have bound := fits.reply
  omega

/-- A device of the same link, decoder and waiting list. -/
theorem Device.LinkFits.of_same {t : Device} (fits : d.LinkFits taken spared) (lnk : t.lnk = d.lnk) (dec : t.dec = d.dec)
    (waiting : t.rtk.waiting = d.rtk.waiting) : t.LinkFits taken spared := by
  constructor
  · rw [lnk]; exact fits.up
  · rw [lnk]; exact fits.upIdle
  · rw [lnk]; exact fits.report
  · rw [lnk]; exact fits.forward
  · rw [lnk, dec]; exact fits.reply
  · rw [dec, waiting]; exact fits.reserved
  · rw [dec]; exact fits.owedBound
  · rw [dec, lnk]; exact fits.owedFull

/-! ### The transmitter takes its next frame (R203) -/

theorem Device.sendReplyPart_fits {e : ReplyEntry} {rest : List ReplyEntry} (fits : d.LinkFits taken spared)
    (held : d.lnk.replyFifo = e :: rest) : (d.sendReplyPart e rest).LinkFits taken spared := by
  have bound := fits.reply
  have full := fits.owedFull
  rw [held, List.length_cons] at bound full
  unfold Device.sendReplyPart
  dsimp only
  split
  · unfold Device.offerReplyPlace
    split
    · rename_i none
      exact { fits with reply := by dsimp only; omega, owedFull := fun owed => absurd none owed }
    · rename_i kind more owed
      have owed : d.dec.owed = kind :: more := owed
      rw [owed] at full
      have sum := full (List.cons_ne_nil _ _)
      have count := fits.owedBound
      rw [owed, List.length_cons] at count
      have same : (rest ++ [ReplyEntry.mk (owedMessage kind) 0]).length = rest.length + 1 := List.length_append
      exact { fits with
        reply := by dsimp only; omega, owedBound := Nat.le_of_succ_le count, owedFull := fun _ => by dsimp only; omega }
  · exact { fits with reply := bound, owedFull := full }

theorem Device.sendReplyPart_settled (e : ReplyEntry) (rest : List ReplyEntry) (d : Device) :
    (d.sendReplyPart e rest).lnk.txSettled := by
  unfold Device.sendReplyPart
  dsimp only
  split
  · unfold Device.offerReplyPlace
    split <;> exact fun idle => nomatch idle
  · exact fun idle => nomatch idle

theorem Device.sendNext_fits (fits : d.LinkFits taken spared) : d.sendNext.LinkFits taken spared := by
  unfold Device.sendNext
  split
  · rename_i e rest held
    exact Device.sendReplyPart_fits fits held
  · split
    · rename_i f rest held
      have bound := fits.report
      rw [held] at bound
      exact { fits with report := Nat.le_of_succ_le bound }
    · split
      · rename_i f rest held
        have bound := fits.forward
        rw [held] at bound
        exact { fits with forward := Nat.le_of_succ_le bound }
      · exact { fits with }

theorem Device.sendNext_settled (d : Device) : d.sendNext.lnk.txSettled := by
  unfold Device.sendNext
  split
  · exact Device.sendReplyPart_settled _ _ d
  · rename_i replies
    split
    · exact fun idle => nomatch idle
    · rename_i reports
      split
      · exact fun idle => nomatch idle
      · rename_i forwards
        exact fun _ => ⟨replies, reports, forwards⟩

theorem Device.wakeTx_fits (fits : d.LinkFits taken spared) : d.wakeTx.LinkFits taken spared := by
  unfold Device.wakeTx
  split
  · exact Device.sendNext_fits fits
  · exact fits

theorem Device.wakeTx_settled (d : Device) : d.wakeTx.lnk.txSettled := by
  unfold Device.wakeTx
  split
  · exact d.sendNext_settled
  · rename_i sending
    exact fun idle => absurd (Option.isNone_iff_eq_none.2 idle) sending

/-- A reply takes a spared place. -/
theorem Device.placeReply_fits (message : List Byte) (fits : d.LinkFits taken (spared + 1)) :
    (d.placeReply message).LinkFits taken spared := by
  have one : (d.lnk.replyFifo ++ [ReplyEntry.mk message 0]).length = d.lnk.replyFifo.length + 1 := List.length_append
  have bound := fits.reply
  refine Device.wakeTx_fits { fits with reply := ?_, owedFull := fun owed => absurd fits.notOwed owed }
  dsimp only
  omega

theorem Device.placeReply_settled (message : List Byte) (d : Device) : (d.placeReply message).lnk.txSettled :=
  Device.wakeTx_settled _

/-- The reply of a waiting request takes the place that its reservation held. -/
theorem Device.placeReserved_fits (message : List Byte) (fits : d.LinkFits (taken + 1) spared) :
    (Device.placeReply message { d with dec := { d.dec with reservations := d.dec.reservations - 1 } }).LinkFits taken spared := by
  have one : (d.lnk.replyFifo ++ [ReplyEntry.mk message 0]).length = d.lnk.replyFifo.length + 1 := List.length_append
  have bound := fits.reply
  have reserved := fits.reserved
  have full := fits.owedFull
  refine Device.wakeTx_fits { fits with reply := ?_, reserved := ?_, owedFull := fun owed => ?_ }
  · dsimp only
    omega
  · dsimp only
    omega
  · have sum := full owed
    dsimp only
    omega

theorem Device.placeReport_fits (f : Frame) (fits : d.LinkFits taken spared) : (d.placeReport f).LinkFits taken spared := by
  unfold Device.placeReport
  split
  · rename_i room
    have room : d.lnk.reportFifo.length < 32 := of_decide_eq_true room
    refine Device.wakeTx_fits { fits with report := ?_ }
    show (d.lnk.reportFifo ++ [f]).length ≤ 32
    rw [List.length_append]
    exact room
  · exact fits

theorem Device.placeReport_settled (f : Frame) (settled : d.lnk.txSettled) : (d.placeReport f).lnk.txSettled := by
  unfold Device.placeReport
  split
  · exact Device.wakeTx_settled _
  · exact settled

/-- With a place spared, a request finds a reply place. -/
theorem Device.LinkFits.place (fits : d.LinkFits taken (spared + 1)) : d.noReplyPlace = false := by
  have bound := fits.reply
  have room : ¬ 4 ≤ d.lnk.replyFifo.length + d.dec.reservations := by omega
  simp [Device.noReplyPlace, Device.replyFull, replyCapacity, fits.notOwed, room]

/-! ### Every change of the link -/

theorem Device.LinkMoves.fits {t : Device} (h : d.LinkMoves t) (fits : d.LinkFits taken spared)
    (none : spared = 0 ∨ d.noReplyPlace = false) : t.LinkFits taken spared := by
  cases h with
  | receiver port => cases port <;> exact { fits with }
  | assembly | counters => exact { fits with }
  | report f => exact Device.placeReport_fits f fits
  | forwarded f room =>
    refine Device.wakeTx_fits { fits with forward := ?_ }
    show (d.lnk.forwardFifo ++ [f]).length ≤ 8
    rw [List.length_append]
    exact room
  | upstream bounds =>
    obtain ⟨up, upIdle⟩ := bounds fits.up fits.upIdle
    exact { fits with up := up, upIdle := upIdle }
  | sent => exact Device.sendNext_fits fits
  | owed kind room full =>
    have bound := fits.reply
    have still : d.lnk.replyFifo.length + d.dec.reservations = 4 := by
      unfold Device.noReplyPlace Device.replyFull replyCapacity at full
      rcases Bool.or_eq_true_iff.1 full with held | owed
      · have held := of_decide_eq_true held
        omega
      · exact fits.owedFull fun none => by simp [none] at owed
    refine { fits with owedBound := ?_, owedFull := fun _ => still }
    show (d.dec.owed ++ [kind]).length ≤ 16
    rw [List.length_append]
    exact room

theorem Device.LinkMoves.settled {t : Device} (h : d.LinkMoves t) (settled : d.lnk.txSettled) : t.lnk.txSettled := by
  cases h with
  | receiver port => cases port <;> exact settled
  | assembly | counters | upstream | owed => exact settled
  | report f => exact Device.placeReport_settled f settled
  | forwarded => exact Device.wakeTx_settled _
  | sent => exact d.sendNext_settled

end

theorem Rtk.Moves.waiting {queue : List QueueEntry} {k m : Rtk} (h : Rtk.Moves queue k m) : m.waiting = k.waiting := by
  cases h with
  | table lists _ _ =>
    unfold Rtk.tableOnly at lists
    have waiting := congrArg Rtk.waiting lists
    exact waiting
  | taken | replayed | ended | flushed | lineReset => rfl

/-- A request that finds a reply place spares it while it is performed (R212). -/
theorem Device.LinkFits.spare {taken : Nat} {d : Device} (fits : d.LinkFits taken 0) (place : d.noReplyPlace = false) :
    d.LinkFits taken 1 := by
  have four : replyCapacity = 4 := rfl
  simp only [Device.noReplyPlace, Device.replyFull, Bool.or_eq_false_iff, decide_eq_false_iff_not] at place
  have room := place.1
  exact { fits with reply := by omega }

theorem Device.Runs.settled {offers replies : Bool} {d t : Device} (h : Device.Runs offers replies d t) :
    d.lnk.txSettled → t.lnk.txSettled := by
  induction h with
  | refl | belt | conditioner | tracker | evaluator | heads | packs | control | custody | drawn | waits => exact id
  | trans _ _ first second => exact second ∘ first
  | link h => exact h.settled
  | answered message => exact fun _ => Device.placeReply_settled message _
  | served message => exact fun _ => Device.placeReply_settled message _
  | lineOperation _ _ _ _ _ ih => exact ih

theorem Rtk.stages2to7_waiting (c : LineContext) (runs : List Run) (k : Rtk) : (k.stages2to7 c runs).waiting = k.waiting := by
  rw [Rtk.stages2to7_sameRecord c runs k]

theorem Device.Runs.fits {offers replies : Bool} {d t : Device} (h : Device.Runs offers replies d t) :
    ∀ {taken spared : Nat}, (replies = true → spared = 0) → d.LinkFits taken spared → t.LinkFits taken spared := by
  induction h with
  | refl => exact fun _ fits => fits
  | belt | conditioner | evaluator | heads | packs | control | custody | drawn => exact fun _ fits => { fits with }
  | trans _ _ first second => exact fun none fits => second none (first none fits)
  | tracker h => exact fun _ fits => fits.of_same rfl rfl h.waiting
  | link h =>
    intro taken spared _ fits
    refine h.fits fits ?_
    cases spared with
    | zero => exact .inl rfl
    | succ spared => exact .inr fits.place
  | answered message place _ ih =>
    intro taken spared none fits
    obtain rfl := none rfl
    exact Device.placeReply_fits message (ih (fun no => absurd no Bool.false_ne_true) (fits.spare place))
  | waits w place =>
    intro taken spared none fits
    obtain rfl := none rfl
    have room := (fits.spare place).reply
    have reserved := fits.reserved
    refine { fits with
      reply := ?_, reserved := ?_, owedFull := fun owed => absurd (fits.spare place).notOwed owed }
    · dsimp only
      omega
    · simp only [List.length_append, List.length_singleton]
      omega
  | served message waiting _ ih =>
    intro taken spared none fits
    have reserved := fits.reserved
    rw [waiting, List.length_cons] at reserved
    refine Device.placeReserved_fits message (ih (fun no => absurd no Bool.false_ne_true) { fits with reserved := ?_ })
    dsimp only
    omega
  | lineOperation c _ _ lists _ ih =>
    intro taken spared none fits
    refine (ih none (fits.of_same rfl rfl ?_)).of_same rfl rfl rfl
    exact Rtk.stages2to7_waiting c _ _

theorem Device.Runs.linkInBounds {offers : Bool} {d t : Device} (h : Device.Runs offers true d t) (bounds : d.LinkInBounds) :
    t.LinkInBounds := by
  obtain ⟨fits, settled⟩ := Device.linkInBounds_iff.1 bounds
  exact Device.linkInBounds_iff.2 ⟨h.fits (fun _ => rfl) fits, h.settled settled⟩

/-! ### The latches reported -/

/-- A latch that the report carried is no longer PENDING, and another is as it was. -/
theorem Lct.latchesAfterReport_reportable (l : Lct) : { l with latches := l.latchesAfterReport }.reportable.any id = false := by
  rw [List.any_eq_false]
  intro b held
  obtain ⟨i, inside, rfl⟩ := List.mem_iff_getElem.1 held
  simp only [Lct.reportable, List.getElem_zipWith, id_eq, Lct.latchesAfterReport, List.getElem_map, List.getElem_range]
  simp only [Lct.reportable, List.length_zipWith, Lct.latchesAfterReport, List.length_map, List.length_range] at inside
  have there : i < (List.zipWith (fun s m => s == LatchState.pending && !m) l.latches l.mask).length := by
    rw [List.length_zipWith]
    exact inside
  rw [List.getD_eq_getElem _ _ there, List.getElem_zipWith, List.getD_eq_getElem _ _ (lt_of_lt_of_le inside (Nat.min_le_left _ _))]
  split
  · split <;> simp
  · rename_i same
    exact same

/-- The LCT's ask leaves no latch to report, or no place (R173). -/
theorem Device.askEventPlace_reported (d : Device) : d.askEventPlace.latchesReported := by
  unfold Device.askEventPlace
  split
  · intro wants
    have lct := Device.placeReport_touches d.eventFrame
      { d with lct := { d.lct with latches := d.lct.latchesAfterReport } } .lct (by decide)
    rw [show _ = _ from lct] at wants
    exact absurd wants (Bool.eq_false_iff.1 d.lct.latchesAfterReport_reportable)
  · rename_i none
    intro wants
    rw [wants, Bool.true_and] at none
    exact Bool.eq_false_iff.2 none

theorem Device.latchesReported_of_same {d t : Device} (latches : t.lct.latches = d.lct.latches) (mask : t.lct.mask = d.lct.mask)
    (report : t.lnk.reportFifo = d.lnk.reportFifo) (reported : d.latchesReported) : t.latchesReported := by
  unfold Device.latchesReported Lct.wants Lct.reportable Device.reportRoom at *
  rwa [latches, mask, report]

theorem Device.latchesReported_of_reset {d : Device} (lct : d.lct = Lct.reset) : d.latchesReported := by
  intro wants
  rw [lct] at wants
  exact absurd wants (by decide)

/-! ### The steps -/

theorem Device.linkInBounds_of_reset {d : Device} (lnk : d.lnk = Lnk.reset) (dec : d.dec = Decoder.reset) (rtk : d.rtk = Rtk.reset) :
    d.LinkInBounds := by
  constructor <;> simp [lnk, dec, rtk, Lnk.reset, Decoder.reset, Rtk.reset, Lnk.txSettled]

theorem Device.LinkInBounds.of_same {d t : Device} (bounds : d.LinkInBounds) (lnk : t.lnk = d.lnk) (dec : t.dec = d.dec)
    (waiting : t.rtk.waiting = d.rtk.waiting) : t.LinkInBounds := by
  obtain ⟨fits, settled⟩ := Device.linkInBounds_iff.1 bounds
  exact Device.linkInBounds_iff.2 ⟨fits.of_same lnk dec waiting, lnk ▸ settled⟩

theorem step_linkInBounds {s t : State} (bounds : s.dev.LinkInBounds) (done : step s = .next t) : t.dev.LinkInBounds := by
  refine step_keeps (P := Device.LinkInBounds) ?event ?sealed ?tick ?restart ?loss ?init done bounds
  case event =>
    intro d e bounds happened
    obtain ⟨offers, runs⟩ := happened.runs
    exact runs.linkInBounds bounds
  case sealed =>
    intro d _ _ bounds
    have touched := Device.sealWriteComplete_touches d
    exact bounds.of_same (touched .lnk (by decide)) (touched .dec (by decide)) (congrArg Rtk.waiting (touched .rtk (by decide)))
  case tick =>
    intro d bounds
    unfold Device.tick
    split
    · exact { bounds with settled := bounds.settled }
    · exact bounds
  case restart => exact fun d _ => Device.linkInBounds_of_reset rfl rfl rfl
  case loss => exact fun d _ => Device.linkInBounds_of_reset rfl rfl rfl
  case init =>
    intro a b strap inputs d _ bounds
    rcases Device.endOfInit_cases (offers := false) a b strap inputs d with idle | ⟨_, runs⟩
    · rwa [idle]
    · exact runs.linkInBounds (bounds.of_same rfl rfl rfl)

theorem step_latchesReported {s t : State} (reported : s.dev.latchesReported) (done : step s = .next t) :
    t.dev.latchesReported := by
  refine step_keeps (P := Device.latchesReported) ?event ?sealed ?tick ?restart ?loss ?init done reported
  case event =>
    intro d t _ happened
    obtain ⟨_, _, e, _, rfl⟩ := happened
    exact e.askEventPlace_reported
  case sealed =>
    intro d _ _ reported
    have touched := Device.sealWriteComplete_touches d
    have lct : d.sealWriteComplete.lct = d.lct := touched .lct (by decide)
    have lnk : d.sealWriteComplete.lnk = d.lnk := touched .lnk (by decide)
    exact Device.latchesReported_of_same (by rw [lct]) (by rw [lct]) (by rw [lnk]) reported
  case tick =>
    intro d reported
    unfold Device.tick
    split
    · exact Device.latchesReported_of_same rfl rfl rfl reported
    · exact reported
  case restart => exact fun d _ => Device.latchesReported_of_reset rfl
  case loss => exact fun d _ => Device.latchesReported_of_reset rfl
  case init =>
    intro a b strap inputs d init reported
    by_cases powered : d.powered = true
    · rw [Device.endOfInit_eq powered init]
      exact Device.askEventPlace_reported _
    · have idle : d.endOfInit a b strap inputs = d := by simp [Device.endOfInit, powered]
      rwa [idle]

/-- Settles O58: every change of the link keeps its bounds, and every event ends with the LCT's ask. -/
theorem stepsKeepTheLinkInBoundsAndLatchesReported : Obligations.StepsKeepTheLinkInBoundsAndLatchesReported :=
  ⟨fun _ _ bounds done => step_linkInBounds bounds done, fun _ _ reported done => step_latchesReported reported done⟩

end Sys2Proof.Machine
end

section
/-!
PROOF. The audit count and the lock (O59): the cell that a commit writes never holds the present count, so that a commit started, failed or cut
leaves the count, and one that completes raises it; while LOCKED is set no commit starts and no table loads.
-/

namespace Sys2Proof.Machine

/-! ### What a row that is not a supply event keeps -/

/-- What an event and a tick keep, every row keeps but the supply events, the end of INIT and the completed seal write. -/
theorem exec_running_keeps {P : Device → Prop} (event : ∀ d t, P d → Device.Event d t → P t) (tick : ∀ d, P d → P d.tick)
    {c : Instr} {s t : State} (running : whileRunning c = true) (other : c ≠ .sealWriteComplete) (done : exec c s = .next t)
    (kept : P s.dev) : P t.dev := by
  by_cases one : oneEvent c = true
  · obtain ⟨f, row, runs⟩ := exec_oneEvent one
    rw [row] at done
    cases done
    show P (s.dev.event f)
    rcases Device.event_cases runs s.dev with idle | happened
    · rwa [idle]
    · exact event _ _ kept happened
  · cases c with
    | powerOn | resetPin | powerLoss | endOfInit => exact absurd running Bool.false_ne_true
    | sealWriteComplete => exact absurd rfl other
    | tick =>
      cases done
      exact tick _ kept
    | discardedFrame port bytes =>
      cases done
      exact Device.takeBytes_keeps event port bytes _ kept
    | _ => exact absurd rfl one

/-- What the changes of the calibration custody keep, what a command can do keeps. -/
theorem Device.Runs.ccu_keeps {offers replies : Bool} {P : Ccu → Prop} (moves : ∀ draws c m, Ccu.Moves draws c m → P c → P m)
    {d t : Device} (h : Device.Runs offers replies d t) : P d.ccu → P t.ccu := by
  induction h with
  | refl | belt | conditioner | tracker | evaluator | heads | packs | control | drawn | waits => exact id
  | trans _ _ first second => exact second ∘ first
  | custody h => exact moves _ _ _ h
  | link h =>
    have same := h.touches .ccu (by decide)
    exact fun kept => same.symm ▸ kept
  | answered message _ _ ih =>
    rw [show _ = _ from Device.placeReply_touches message _ .ccu (by decide)]
    exact ih
  | served message _ _ ih =>
    rw [show _ = _ from Device.placeReply_touches message _ .ccu (by decide)]
    exact ih
  | lineOperation _ _ _ _ _ ih => exact ih

/-! ### The audit count of the seals (R182, R186) -/

theorem CalStore.auditCount_of_seals {a b : CalStore} (seal0 : a.seal0 = b.seal0) (seal1 : a.seal1 = b.seal1) :
    a.auditCount = b.auditCount := by rw [CalStore.auditCount, CalStore.auditCount, seal0, seal1]

/-- The count of a seal cell, 0 when it is blank (R186). -/
def sealCount : Option Seal → Nat
  | some s => s.count
  | none => 0

theorem CalStore.auditCount_eq (st : CalStore) : st.auditCount = max (sealCount st.seal0) (sealCount st.seal1) := rfl

/-- The target is the other cell when cell 0 holds the present count, and cell 0 when it does not (R182). -/
theorem Ccu.target_cases (c : Ccu) :
    (c.target = 1 ∧ sealCount c.store.seal0 = c.audit) ∨
      (c.target = 0 ∧ (c.store.seal0 = none ∨ sealCount c.store.seal0 ≠ c.audit)) := by
  unfold Ccu.target
  cases c.store.seal0 with
  | none => exact .inr ⟨rfl, .inl rfl⟩
  | some s =>
    by_cases present : s.count = c.audit
    · exact .inl ⟨if_pos present, present⟩
    · exact .inr ⟨if_neg present, .inr present⟩

/-- The target cell holds no seal with the present count, so that blanking it leaves the count. -/
theorem Ccu.auditCount_blanked {c : Ccu} (counted : c.store.auditCount = c.audit) :
    (c.store.setSeal c.target none).auditCount = c.audit := by
  rw [CalStore.auditCount_eq] at counted
  rcases c.target_cases with ⟨target, present⟩ | ⟨target, absent⟩
  · rw [target]
    show max (sealCount c.store.seal0) 0 = c.audit
    omega
  · rw [target]
    show max 0 (sealCount c.store.seal1) = c.audit
    rcases absent with blank | other
    · rw [blank] at counted
      exact counted
    · omega

/-- A seal with the next count, written in the target cell, is the count. -/
theorem Ccu.auditCount_sealed {c : Ccu} (counted : c.store.auditCount = c.audit) : c.sealedStore.auditCount = c.audit + 1 := by
  rw [CalStore.auditCount_eq] at counted
  unfold Ccu.sealedStore
  rcases c.target_cases with ⟨target, _⟩ | ⟨target, _⟩
  · rw [target]
    show max (sealCount c.store.seal0) (c.audit + 1) = c.audit + 1
    omega
  · rw [target]
    show max (c.audit + 1) (sealCount c.store.seal1) = c.audit + 1
    omega

/-! ### Counted and unlocked -/

/-- The seals hold the present count, and no commit is in flight while LOCKED is set. -/
structure Ccu.Counted (c : Ccu) : Prop where
  sealed : c.store.auditCount = c.audit
  unlocked : c.lock.locked = true → c.committing = false

theorem Ccu.promoteIfPending_keeps (c : Ccu) :
    c.promoteIfPending.store.auditCount = c.store.auditCount ∧ c.promoteIfPending.audit = c.audit ∧
      c.promoteIfPending.committing = c.committing := by
  unfold Ccu.promoteIfPending
  split <;> exact ⟨rfl, rfl, rfl⟩

theorem Ccu.lineReset_keeps (c : Ccu) :
    c.lineReset.store.auditCount = c.store.auditCount ∧ c.lineReset.audit = c.audit ∧ c.lineReset.committing = c.committing := by
  unfold Ccu.lineReset
  split <;> exact ⟨rfl, rfl, rfl⟩

theorem Ccu.Moves.audit {draws : Nat} {c m : Ccu} (h : Ccu.Moves draws c m) : m.audit = c.audit := by
  cases h with
  | loaded | started | lockNext => rfl
  | failed => exact c.failCommit.promoteIfPending_keeps.2.1
  | lineReset => exact c.lineReset_keeps.2.1

theorem Ccu.Moves.counted {draws : Nat} {c m : Ccu} (h : Ccu.Moves draws c m) (counted : c.Counted) : m.Counted := by
  cases h with
  | loaded => exact { counted with }
  | started unlocked _ _ =>
    refine ⟨(CalStore.auditCount_of_seals rfl rfl).trans (Ccu.auditCount_blanked counted.sealed), fun locked => ?_⟩
    have same : (c.store.setSeal c.target none).lockCell = c.store.lockCell := CalStore.setSeal_lockCell _ _ _
    have locked : LockFlags.locked ((c.store.setSeal c.target none).lockCell.getD ⟨false, false⟩) = true := locked
    rw [same] at locked
    exact absurd (unlocked.symm.trans locked) Bool.false_ne_true
  | failed =>
    obtain ⟨count, audit, committing⟩ := c.failCommit.promoteIfPending_keeps
    exact ⟨count.trans ((Ccu.auditCount_blanked counted.sealed).trans audit.symm), fun _ => committing⟩
  | lockNext => exact { counted with }
  | lineReset =>
    obtain ⟨count, audit, committing⟩ := c.lineReset_keeps
    refine ⟨count.trans (counted.sealed.trans audit.symm), fun locked => ?_⟩
    rw [committing]
    by_cases flight : c.committing = true
    · unfold Ccu.lineReset at locked
      rw [if_pos flight] at locked
      exact counted.unlocked locked
    · exact Bool.eq_false_iff.2 flight

theorem Device.CountSealed.counted {d : Device} (h : d.CountSealed) (after : d.lct.lineState ≠ .init) : d.ccu.Counted :=
  ⟨h.sealed after, h.unlocked⟩

theorem Ccu.Counted.device {d : Device} (h : d.ccu.Counted) (after : d.lct.lineState ≠ .init) : d.CountSealed :=
  ⟨fun _ => h.sealed, fun init => absurd init after, h.unlocked⟩

theorem Device.Event.after {d t : Device} (h : d.Event t) : d.lct.lineState ≠ .init ∧ t.lct.lineState ≠ .init := by
  obtain ⟨offers, runs⟩ := h.runs
  exact ⟨h.1.afterInit, (runs.inService h.1).afterInit⟩

theorem Device.Event.countSealed {d t : Device} (h : d.Event t) (counted : d.CountSealed) :
    t.CountSealed ∧ t.ccu.audit = d.ccu.audit := by
  obtain ⟨offers, runs⟩ := h.runs
  obtain ⟨before, after⟩ := h.after
  have kept := runs.ccu_keeps (P := fun c => c.Counted ∧ c.audit = d.ccu.audit)
    (fun _ _ _ moved kept => ⟨moved.counted kept.1, moved.audit.trans kept.2⟩) ⟨counted.counted before, rfl⟩
  exact ⟨kept.1.device after, kept.2⟩

/-- What a millisecond of the store's work leaves. -/
theorem Ccu.storeWorks_keeps (draws : Nat) (c : Ccu) :
    (c.storeWorks draws).store = { c.store with setArea := (c.storeWorks draws).store.setArea } ∧
      (c.storeWorks draws).audit = c.audit ∧ (c.storeWorks draws).committing = c.committing ∧
      (c.storeWorks draws).active = c.active ∧ (c.storeWorks draws).valid = c.valid ∧
      (c.storeWorks draws).working = c.working ∧ (c.storeWorks draws).segments = c.segments := by
  rcases c.storeWorks_cases draws with ⟨_, same⟩ | ⟨_, same⟩ | ⟨_, n, _, same⟩ | ⟨_, n, _, _, _, same⟩ <;> rw [same] <;>
    exact ⟨rfl, rfl, rfl, rfl, rfl, rfl, rfl⟩

theorem Device.tick_ccu (d : Device) :
    d.tick.ccu = d.ccu ∨ d.tick.ccu = { d.ccu.storeWorks d.draws with commitTimer := Timer.tick d.ccu.commitTimer } :=
  (ite_eq_or_eq d.powered _ _).elim (fun e => .inr (congrArg Device.ccu e)) fun e => .inl (congrArg Device.ccu e)

theorem Device.tick_lineState (d : Device) : d.tick.lct.lineState = d.lct.lineState := by
  unfold Device.tick
  split <;> rfl

theorem Device.tick_countSealed {d : Device} (h : d.CountSealed) : d.tick.CountSealed ∧ d.tick.ccu.audit = d.ccu.audit := by
  rcases d.tick_ccu with same | same
  · refine ⟨⟨?_, ?_, ?_⟩, by rw [same]⟩ <;> rw [same]
    · rw [d.tick_lineState]
      exact h.sealed
    · rw [d.tick_lineState]
      exact h.afterInit
    · exact h.unlocked
  · obtain ⟨store, audit, committing, _⟩ := d.ccu.storeWorks_keeps d.draws
    have count : (d.ccu.storeWorks d.draws).store.auditCount = d.ccu.store.auditCount := by
      rw [store]
      rfl
    have lock : (d.ccu.storeWorks d.draws).lock = d.ccu.lock := by
      unfold Ccu.lock
      rw [store]
    refine ⟨⟨fun after => ?_, fun init => ?_, fun locked => ?_⟩, by rw [same]; exact audit⟩
    · rw [d.tick_lineState] at after
      rw [same]
      exact count.trans ((h.sealed after).trans audit.symm)
    · rw [d.tick_lineState] at init
      rw [same]
      exact committing.trans (h.afterInit init)
    · rw [same] at locked ⊢
      exact committing.trans (h.unlocked (lock ▸ locked))

/-! ### The completed seal write, the cut and the end of INIT -/

theorem Device.sealWriteComplete_ccu {d : Device} (flight : d.ccu.committing = true) :
    d.sealWriteComplete.ccu = d.ccu.completeCommit.promoteIfPending := by
  unfold Device.sealWriteComplete
  rw [if_pos flight]
  rfl

theorem Ccu.completeCommit_counted {c : Ccu} (counted : c.store.auditCount = c.audit) :
    c.completeCommit.promoteIfPending.Counted ∧ c.completeCommit.promoteIfPending.audit = c.audit + 1 := by
  obtain ⟨count, audit, committing⟩ := c.completeCommit.promoteIfPending_keeps
  exact ⟨⟨count.trans ((Ccu.auditCount_sealed counted).trans audit.symm), fun _ => committing⟩, audit⟩

theorem Device.sealWriteComplete_countSealed {d : Device} (service : d.InService) (flight : d.ccu.committing = true)
    (h : d.CountSealed) : d.sealWriteComplete.CountSealed ∧ d.sealWriteComplete.ccu.audit = d.ccu.audit + 1 := by
  have lct : d.sealWriteComplete.lct = d.lct := Device.sealWriteComplete_touches d .lct (by decide)
  obtain ⟨counted, audit⟩ := Ccu.completeCommit_counted (h.sealed service.afterInit)
  rw [← Device.sealWriteComplete_ccu flight] at counted audit
  exact ⟨counted.device (lct ▸ service.afterInit), audit⟩

/-- A cut leaves the count of the seals, or raises it where the seal was written. -/
theorem Device.storeAfterCut_auditCount {d : Device} (h : d.CountSealed) :
    d.ccu.store.auditCount ≤ d.storeAfterCut.auditCount := by
  by_cases flight : d.ccu.committing = true
  · have after : d.lct.lineState ≠ .init := fun init => absurd ((h.afterInit init).symm.trans flight) Bool.false_ne_true
    have counted := h.sealed after
    rcases Device.storeAfterCut_written flight with blanked | sealed
    · rw [blanked, Ccu.auditCount_blanked counted, counted]
    · rw [sealed, Ccu.auditCount_sealed counted, counted]
      exact Nat.le_succ _
  · rw [Device.storeAfterCut_idle (Bool.eq_false_iff.2 flight)]

theorem Device.countSealed_of_reset {d : Device} {store : CalStore} (lct : d.lct = Lct.reset) (ccu : d.ccu = Ccu.reset store) :
    d.CountSealed := by
  constructor
  · rw [lct]
    exact fun after => absurd rfl after
  · rw [ccu]
    exact fun _ => rfl
  · rw [ccu]
    exact fun _ => rfl

theorem Ccu.load_keeps (strap : Bool) (c : Ccu) :
    (c.load strap).store = { c.store with lockCell := (c.load strap).store.lockCell } ∧ (c.load strap).audit = c.store.auditCount ∧
      (c.load strap).committing = c.committing ∧ (c.load strap).stage = c.stage := by
  unfold Ccu.load Ccu.applyStrap Ccu.promoteLock
  cases strap <;> exact ⟨rfl, rfl, rfl, rfl⟩

theorem Ccu.load_counted (strap : Bool) {c : Ccu} (idle : c.committing = false) : (c.load strap).Counted := by
  obtain ⟨store, audit, committing, _⟩ := c.load_keeps strap
  refine ⟨?_, fun _ => committing.trans idle⟩
  rw [audit, store]
  rfl

theorem Device.Runs.counted {offers replies : Bool} {d t : Device} (h : Device.Runs offers replies d t) :
    d.ccu.Counted → t.ccu.Counted := h.ccu_keeps fun _ _ _ moved => moved.counted

theorem Device.Runs.audit {offers replies : Bool} {d t : Device} (h : Device.Runs offers replies d t) :
    t.ccu.audit = d.ccu.audit :=
  h.ccu_keeps (P := fun c => c.audit = d.ccu.audit) (fun _ _ _ moved same => moved.audit.trans same) rfl

theorem Device.endOfInit_countSealed (a b strap : Bool) (inputs : BitVec 8) {d : Device} (h : d.CountSealed) :
    (d.endOfInit a b strap inputs).CountSealed ∧
      (d.endOfInit a b strap inputs).ccu.store.auditCount = d.ccu.store.auditCount := by
  rcases Device.endOfInit_cases (offers := false) a b strap inputs d with idle | ⟨init, runs⟩
  · rw [idle]
    exact ⟨h, rfl⟩
  · have loaded : (d.opened a b strap inputs).ccu.Counted := Ccu.load_counted strap (h.afterInit init)
    have counted := runs.counted loaded
    have after := runs.lct_moves.afterInit (fun init => LineState.noConfusion init)
    refine ⟨counted.device after, ?_⟩
    rw [counted.sealed, runs.audit]
    exact (d.ccu.load_keeps strap).2.1

/-- Every step keeps the seals with the count, and never lowers it. -/
theorem step_countSealed {s t : State} (h : s.dev.CountSealed) (done : step s = .next t) :
    t.dev.CountSealed ∧ s.dev.ccu.store.auditCount ≤ t.dev.ccu.store.auditCount := by
  refine step_keeps (P := fun d => d.CountSealed ∧ s.dev.ccu.store.auditCount ≤ d.ccu.store.auditCount)
    ?event ?sealed ?tick ?restart ?loss ?init done ⟨h, le_refl _⟩
  case event =>
    intro d e ⟨counted, above⟩ happened
    obtain ⟨kept, audit⟩ := happened.countSealed counted
    obtain ⟨before, after⟩ := happened.after
    refine ⟨kept, ?_⟩
    rw [kept.sealed after, audit, ← counted.sealed before]
    exact above
  case sealed =>
    intro d service flight ⟨counted, above⟩
    obtain ⟨kept, audit⟩ := Device.sealWriteComplete_countSealed service flight counted
    have lct : d.sealWriteComplete.lct = d.lct := Device.sealWriteComplete_touches d .lct (by decide)
    refine ⟨kept, ?_⟩
    rw [kept.sealed (lct ▸ service.afterInit), audit, ← counted.sealed service.afterInit]
    exact Nat.le_succ_of_le above
  case tick =>
    intro d ⟨counted, above⟩
    refine ⟨(Device.tick_countSealed counted).1, ?_⟩
    rcases d.tick_ccu with same | same
    · rwa [same]
    · rw [same]
      have store := (d.ccu.storeWorks_keeps d.draws).1
      show _ ≤ (d.ccu.storeWorks d.draws).store.auditCount
      rw [store]
      exact above
  case restart => exact fun d ⟨counted, above⟩ =>
      ⟨Device.countSealed_of_reset rfl rfl, above.trans (Device.storeAfterCut_auditCount counted)⟩
  case loss => exact fun d ⟨counted, above⟩ =>
      ⟨Device.countSealed_of_reset (store := d.storeAfterCut) rfl rfl, above.trans (Device.storeAfterCut_auditCount counted)⟩
  case init =>
    intro a b strap inputs d _ ⟨counted, above⟩
    obtain ⟨kept, count⟩ := Device.endOfInit_countSealed a b strap inputs counted
    exact ⟨kept, count ▸ above⟩

/-! ### The count of one row -/

/-- A completed seal write with no commit in flight does nothing but the LCT's ask. -/
theorem exec_sealWriteComplete_idle {s t : State} (no : ¬ (s.dev.InService ∧ s.dev.ccu.committing = true))
    (done : exec .sealWriteComplete s = .next t) : t.dev.ccu = s.dev.ccu := by
  cases done
  show (s.dev.event Device.sealWriteComplete).ccu = _
  unfold Device.event
  split
  · rename_i live
    have idle : s.dev.sealWriteComplete = s.dev := by
      unfold Device.sealWriteComplete
      exact if_neg fun flight => no ⟨Device.live_iff.1 live, flight⟩
    rw [idle]
    exact Device.askEventPlace_touches s.dev .ccu (by decide)
  · rfl

theorem exec_sealWriteComplete_audit {s t : State} (h : s.dev.CountSealed) (service : s.dev.InService)
    (flight : s.dev.ccu.committing = true) (done : exec .sealWriteComplete s = .next t) :
    t.dev.ccu.audit = s.dev.ccu.audit + 1 := by
  rw [show exec .sealWriteComplete s = _ from State.event_next service _] at done
  cases done
  rw [show Device.ccu _ = _ from Device.askEventPlace_touches s.dev.sealWriteComplete .ccu (by decide)]
  exact (Device.sealWriteComplete_countSealed service flight h).2

theorem exec_running_audit {c : Instr} {s t : State} (h : s.dev.CountSealed) (running : whileRunning c = true)
    (other : c ≠ .sealWriteComplete) (done : exec c s = .next t) : t.dev.ccu.audit = s.dev.ccu.audit := by
  refine (exec_running_keeps (P := fun d => d.CountSealed ∧ d.ccu.audit = s.dev.ccu.audit) ?_ ?_ running other done ⟨h, rfl⟩).2
  · intro d e ⟨counted, same⟩ happened
    obtain ⟨kept, audit⟩ := happened.countSealed counted
    exact ⟨kept, audit.trans same⟩
  · intro d ⟨counted, same⟩
    obtain ⟨kept, audit⟩ := Device.tick_countSealed counted
    exact ⟨kept, audit.trans same⟩

/-! ### The locked set (R188) -/

/-- The calibration custody of a locked part: LOCKED stands, no commit is in flight, and the sets are as they were. -/
structure Ccu.LockedAs (c m : Ccu) : Prop where
  store : m.store = { c.store with lockCell := m.store.lockCell }
  sets : m.active = c.active ∧ m.valid = c.valid ∧ m.working = c.working ∧ m.segments = c.segments
  locked : m.lock.locked = true
  idle : m.committing = false
  resting : m.stage = .resting

theorem Ccu.LockedAs.promoted {c m : Ccu} (h : c.LockedAs m) : c.LockedAs m.promoteLock :=
  ⟨congrArg (fun st : CalStore => { st with lockCell := some ⟨false, m.lock.locked || m.lock.lockNext⟩ }) h.store, h.sets,
    by simp [Ccu.promoteLock, Ccu.lock, show (m.store.lockCell.getD ⟨false, false⟩).locked = true from h.locked], h.idle, h.resting⟩

theorem Ccu.Moves.lockedAs {draws : Nat} {c m n : Ccu} (moved : Ccu.Moves draws m n) (h : c.LockedAs m) : c.LockedAs n := by
  cases moved with
  | loaded _ unlocked _ _ _ _ => exact absurd (unlocked.symm.trans h.locked) Bool.false_ne_true
  | started unlocked _ _ => exact absurd (unlocked.symm.trans h.locked) Bool.false_ne_true
  | failed flight => exact absurd (h.idle.symm.trans flight) Bool.false_ne_true
  | lockNext =>
    exact ⟨congrArg (fun st : CalStore => { st with lockCell := some ⟨true, m.lock.locked⟩ }) h.store, h.sets, h.locked, h.idle,
      h.resting⟩
  | lineReset =>
    have promoted : m.lineReset = m.promoteLock := by
      unfold Ccu.lineReset
      rw [h.idle]
      rfl
    rw [promoted]
    exact h.promoted

theorem Ccu.LockedAs.refl {c : Ccu} (locked : c.lock.locked = true) (idle : c.committing = false) (resting : c.stage = .resting) :
    c.LockedAs c := ⟨rfl, ⟨rfl, rfl, rfl, rfl⟩, locked, idle, resting⟩

theorem exec_running_lockedAs {c : Instr} {s t : State} (running : whileRunning c = true) (h : s.dev.ccu.LockedAs s.dev.ccu)
    (done : exec c s = .next t) : s.dev.ccu.LockedAs t.dev.ccu := by
  by_cases other : c = .sealWriteComplete
  · subst other
    rw [exec_sealWriteComplete_idle (fun flight => absurd (h.idle.symm.trans flight.2) Bool.false_ne_true) done]
    exact h
  · refine exec_running_keeps (P := fun d => s.dev.ccu.LockedAs d.ccu) ?_ ?_ running other done h
    · intro d e kept happened
      obtain ⟨offers, runs⟩ := happened.runs
      exact runs.ccu_keeps (fun _ _ _ moved => moved.lockedAs) kept
    · intro d kept
      rcases d.tick_ccu with same | same
      · rwa [same]
      · rw [same]
        have still : d.ccu.storeWorks d.draws = d.ccu := by
          unfold Ccu.storeWorks
          rw [kept.resting]
        rw [still]
        exact { kept with }

theorem Device.endOfInit_locked (a b strap : Bool) (inputs : BitVec 8) {d : Device} (h : d.ccu.LockedAs d.ccu) :
    (d.endOfInit a b strap inputs).ccu.store =
        { d.ccu.store with lockCell := (d.endOfInit a b strap inputs).ccu.store.lockCell } ∧
      (strap = false → (d.endOfInit a b strap inputs).ccu.lock.locked = true) := by
  have ccu : (d.endOfInit a b strap inputs).ccu = d.ccu ∨ (d.endOfInit a b strap inputs).ccu = d.ccu.load strap := by
    unfold Device.endOfInit
    dsimp only
    split
    · right
      rw [show Device.ccu _ = _ from Device.askEventPlace_touches _ .ccu (by decide)]
      split <;> rfl
    · exact .inl rfl
  rcases ccu with same | same
  · rw [same]
    exact ⟨rfl, fun _ => h.locked⟩
  · rw [same]
    refine ⟨(d.ccu.load_keeps strap).1, fun none => ?_⟩
    have locked : (d.ccu.store.lockCell.getD ⟨false, false⟩).locked = true := h.locked
    simp [none, Ccu.load, Ccu.applyStrap, Ccu.promoteLock, Ccu.lock, locked]

/-- What any row leaves of a locked store: the store but for its lock cell, and LOCKED unless a fitted strap clears it. -/
theorem exec_locked {c : Instr} {s t : State} (h : s.dev.ccu.LockedAs s.dev.ccu) (done : exec c s = .next t) :
    t.dev.ccu.store = { s.dev.ccu.store with lockCell := t.dev.ccu.store.lockCell } ∧
      ((∀ a b inputs, c ≠ .endOfInit a b true inputs) → t.dev.ccu.lock.locked = true) := by
  have cut : s.dev.storeAfterCut = s.dev.ccu.store := Device.storeAfterCut_idle h.idle
  have restarted {d : Device} (store : d.ccu.store = s.dev.ccu.store) :
      d.ccu.store = { s.dev.ccu.store with lockCell := d.ccu.store.lockCell } ∧ d.ccu.lock.locked = true := by
    refine ⟨by rw [store], ?_⟩
    unfold Ccu.lock
    rw [store]
    exact h.locked
  by_cases running : whileRunning c = true
  · have kept := exec_running_lockedAs running h done
    exact ⟨kept.store, fun _ => kept.locked⟩
  · cases c with
    | powerOn =>
      cases done
      have kept := restarted (d := s.dev.restart) cut
      exact ⟨kept.1, fun _ => kept.2⟩
    | resetPin =>
      cases done
      have store : (s.dev.resetPin).ccu.store = s.dev.ccu.store := by
        unfold Device.resetPin
        split
        · exact cut
        · rfl
      exact ⟨(restarted store).1, fun _ => (restarted store).2⟩
    | powerLoss =>
      cases done
      have store : (s.dev.powerLoss).ccu.store = s.dev.ccu.store := by
        unfold Device.powerLoss
        split
        · exact cut
        · rfl
      exact ⟨(restarted store).1, fun _ => (restarted store).2⟩
    | endOfInit a b strap inputs =>
      cases done
      obtain ⟨store, locked⟩ := Device.endOfInit_locked a b strap inputs h
      exact ⟨store, fun no => locked (Bool.eq_false_iff.2 fun fitted => no a b inputs (by rw [fitted]))⟩
    | _ => exact absurd rfl running

/-- Settles O59: the count by the cell that a commit writes, the locked set by the tests of a commit and a load. -/
theorem stepsKeepTheAuditCountAndTheLockedSet : Obligations.StepsKeepTheAuditCountAndTheLockedSet := by
  intro s t h done
  obtain ⟨kept, above⟩ := step_countSealed h done
  have performed (c : Instr) (rest : List Instr) (front : s.pending = c :: rest) : exec c { s with pending := rest } = .next t := by
    rw [step, front] at done
    exact done
  refine ⟨kept, above, fun c rest front running => ⟨fun ends => ?_, fun no => ?_⟩, fun locked stage => ?_⟩
  · obtain ⟨rfl, service, flight⟩ := ends
    exact exec_sealWriteComplete_audit (s := { s with pending := rest }) h service flight (performed _ rest front)
  · by_cases other : c = .sealWriteComplete
    · subst other
      rw [exec_sealWriteComplete_idle (s := { s with pending := rest }) (fun flight => no ⟨rfl, flight⟩)
        (performed _ rest front)]
    · exact exec_running_audit (s := { s with pending := rest }) h running other (performed c rest front)
  · have idle := h.unlocked locked
    have start := Ccu.LockedAs.refl locked idle (stage.resting.2 idle)
    refine ⟨?_, fun c rest front => ⟨fun running => ?_, ?_⟩⟩
    · cases front : s.pending with
      | nil =>
        rw [step, front] at done
        cases done
        rfl
      | cons c rest => exact (exec_locked (s := { s with pending := rest }) start (performed c rest front)).1
    · exact (exec_running_lockedAs (s := { s with pending := rest }) running start (performed c rest front)).sets
    · exact (exec_locked (s := { s with pending := rest }) start (performed c rest front)).2

end Sys2Proof.Machine
end

section
/-!
PROOF. The sets (O60): a word enters the working copy by a LOAD that judged it, the active set from a full working copy or from a store that
matches its seal, and the store goes through the stages of a commit.
-/

namespace Sys2Proof.Machine

/-! ### The segments of the set (R177, R179) -/

theorem CalTable.segmentIndex_inj {t u : CalTable} {m n : Nat} (inside : m < t.segments) (inside' : n < u.segments)
    (same : t.segmentIndex m = u.segmentIndex n) : t = u ∧ m = n := by
  cases t <;> cases u <;> simp only [CalTable.segments, CalTable.segmentIndex] at * <;> grind

/-- The place after the last one of the table. -/
def CalTable.finish : CalTable → Nat
  | .widths => 1600
  | .mask => 3200
  | .conditioning => 3207

theorem CalTable.segment_before {t : CalTable} {n : Nat} (inside : n < t.segments) :
    t.start n + t.words n ≤ t.finish ∧ ∀ m, n < m → m < t.segments → t.start n + t.words n ≤ t.start m := by
  cases t with
  | widths =>
    simp only [CalTable.segments, CalTable.start, CalTable.words, CalTable.finish] at inside ⊢
    refine ⟨?_, fun m later inside' => ?_⟩ <;> split_ifs <;> omega
  | mask | conditioning =>
    simp only [CalTable.segments, CalTable.start, CalTable.words, CalTable.finish] at inside ⊢
    exact ⟨by omega, fun m later inside' => by omega⟩

/-- A segment ends before the next one starts. -/
theorem CalTable.segment_end {t u : CalTable} {m n : Nat} (inside : m < t.segments) (inside' : n < u.segments)
    (before : t.segmentIndex m < u.segmentIndex n) : t.start m + t.words m ≤ u.start n := by
  obtain ⟨last, next⟩ := CalTable.segment_before inside
  have next := next n
  cases t <;> cases u <;>
    simp only [CalTable.segments, CalTable.segmentIndex, CalTable.start, CalTable.finish] at inside inside' before next last ⊢ <;> omega

/-- Two segments are the same one, or apart. -/
theorem CalTable.segment_same_or_apart {t u : CalTable} {m n : Nat} (inside : m < t.segments) (inside' : n < u.segments) :
    (t = u ∧ m = n) ∨
      (t.segmentIndex m ≠ u.segmentIndex n ∧ ∀ i, t.start m ≤ i → i < t.start m + t.words m →
        i < u.start n ∨ u.start n + u.words n ≤ i) := by
  rcases lt_trichotomy (t.segmentIndex m) (u.segmentIndex n) with before | same | after
  · have ends := CalTable.segment_end inside inside' before
    exact Or.inr ⟨before.ne, fun i _ last => Or.inl (lt_of_lt_of_le last ends)⟩
  · exact Or.inl (CalTable.segmentIndex_inj inside inside' same)
  · have ends := CalTable.segment_end inside' inside after
    exact Or.inr ⟨after.ne', fun i first _ => Or.inr (le_trans ends first)⟩

/-- Every place of the set is of one of its segments. -/
theorem CalTable.segment_of_place {i : Nat} (inside : i < 3207) :
    ∃ (t : CalTable) (n : Nat), n < t.segments ∧ t.segmentIndex n < 16 ∧ t.start n ≤ i ∧ i < t.start n + t.words n := by
  by_cases widths : i < 1600
  · refine ⟨.widths, i / 128, ?_⟩
    simp only [CalTable.segments, CalTable.segmentIndex, CalTable.start, CalTable.words]
    split_ifs <;> omega
  · by_cases mask : i < 3200
    · refine ⟨.mask, (i - 1600) / 800, ?_⟩
      simp only [CalTable.segments, CalTable.segmentIndex, CalTable.start, CalTable.words]
      omega
    · refine ⟨.conditioning, 0, ?_⟩
      simp only [CalTable.segments, CalTable.segmentIndex, CalTable.start, CalTable.words]
      omega

theorem writeWords_inside {start i : Nat} {words : List Nat} {set : List (Option Nat)} (room : start ≤ set.length)
    (after : start ≤ i) (before : i < start + words.length) : (writeWords start words set)[i]? = (words[i - start]?).map some := by
  have first : (set.take start).length = start := List.length_take_of_le room
  unfold writeWords
  rw [List.append_assoc, List.getElem?_append_right (by rw [first]; exact after), first,
    List.getElem?_append_left (by rw [List.length_map]; omega), List.getElem?_map]

theorem writeWords_outside {start i : Nat} {words : List Nat} {set : List (Option Nat)} (room : start ≤ set.length)
    (outside : i < start ∨ start + words.length ≤ i) : (writeWords start words set)[i]? = set[i]? := by
  have first : (set.take start).length = start := List.length_take_of_le room
  unfold writeWords
  rw [List.append_assoc]
  rcases outside with before | after
  · rw [List.getElem?_append_left (by rw [first]; exact before), List.getElem?_take_of_lt before]
  · rw [List.getElem?_append_right (by omega), first, List.getElem?_append_right (by rw [List.length_map]; omega),
      List.getElem?_drop, List.length_map]
    congr 1
    omega

/-! ### The legal words -/

theorem wordsLegal_legalAt : ∀ {position : Nat} {set : List (Option Nat)}, wordsLegal position set = true → ∀ i < set.length,
    ∃ w, set[i]? = some (some w) ∧ wordLegal (position + i) w = true
  | _, [], _, i, inside => absurd inside (Nat.not_lt_zero i)
  | position, some w :: rest, legal, 0, _ => by
    rw [wordsLegal, Bool.and_eq_true] at legal
    exact ⟨w, rfl, legal.1⟩
  | position, some w :: rest, legal, i + 1, inside => by
    rw [wordsLegal, Bool.and_eq_true] at legal
    obtain ⟨x, held, fits⟩ := wordsLegal_legalAt legal.2 i (Nat.lt_of_succ_lt_succ inside)
    refine ⟨x, held, ?_⟩
    rwa [show position + (i + 1) = position + 1 + i by omega]

/-- A valid store holds legal words alone (R186). -/
theorem CalStore.isValid_legal {st : CalStore} (valid : st.isValid = true) (sized : st.setArea.length = 3207) :
    ∀ i < 3207, legalAt st.setArea i := by
  intro i inside
  unfold CalStore.isValid matchesSeal at valid
  split at valid
  · exact absurd valid Bool.false_ne_true
  · rw [Bool.and_eq_true] at valid
    obtain ⟨w, held, legal⟩ := wordsLegal_legalAt valid.1 i (sized ▸ inside)
    exact ⟨w, held, by rwa [Nat.add_comm] at legal⟩

/-- What SetsLegal says of the calibration custody. -/
structure Ccu.SetsLegal (c : Ccu) : Prop where
  active : c.valid = true → ∀ i < 3207, legalAt c.active i
  segments : ∀ (t : CalTable) (n : Nat), n < t.segments → c.segments.getD (t.segmentIndex n) .unset ≠ .unset →
    ∀ i, t.start n ≤ i → i < t.start n + t.words n → legalAt c.working i
  committing : c.committing = true → ∀ i < 16, c.segments.getD i .unset ≠ .unset

theorem Device.SetsLegal.ccu {d : Device} (h : d.SetsLegal) : d.ccu.SetsLegal := ⟨h.active, h.segments, h.committing⟩

theorem Ccu.SetsLegal.of_same {c m : Ccu} (h : c.SetsLegal) (active : m.active = c.active) (valid : m.valid = c.valid)
    (working : m.working = c.working) (segments : m.segments = c.segments)
    (committing : m.committing = true → c.committing = true) : m.SetsLegal := by
  constructor
  · rw [valid, active]
    exact h.active
  · rw [working, segments]
    exact h.segments
  · rw [segments]
    exact fun flight => h.committing (committing flight)

/-- A working copy with no segment UNSET holds legal words alone. -/
theorem Ccu.SetsLegal.full {c : Ccu} (h : c.SetsLegal) (set : ∀ i < 16, c.segments.getD i .unset ≠ .unset) :
    ∀ i < 3207, legalAt c.working i := by
  intro i inside
  obtain ⟨t, n, named, index, after, before⟩ := CalTable.segment_of_place inside
  exact h.segments t n named (set _ index) i after before

theorem Ccu.loadSegment_setsLegal {c : Ccu} {t : CalTable} {segment : Nat} {words : List Nat} (h : c.SetsLegal) (sized : c.Sized)
    (idle : c.committing = false) (inside : segment < t.segments) (length : words.length = t.words segment)
    (legal : ∀ k w, words[k]? = some w → wordLegal (t.start segment + k + 1) w = true) :
    (c.loadSegment t segment words).SetsLegal := by
  have fits := CalTable.segment_inside inside
  have room : t.start segment ≤ c.working.length := by rw [sized.working]; omega
  refine ⟨h.active, fun u n named set i after before => ?_, fun flight => absurd (idle.symm.trans flight) Bool.false_ne_true⟩
  rcases CalTable.segment_same_or_apart named inside with ⟨rfl, rfl⟩ | ⟨other, apart⟩
  · have there : i - u.start n < words.length := by omega
    refine ⟨words[i - u.start n], ?_, ?_⟩
    · show (writeWords _ _ _)[i]? = _
      rw [writeWords_inside room after (by omega), List.getElem?_eq_getElem there]
      rfl
    · have fits := legal _ _ (List.getElem?_eq_getElem there)
      rwa [show u.start n + (i - u.start n) + 1 = i + 1 by omega] at fits
  · have same : (c.loadSegment t segment words).segments.getD (u.segmentIndex n) .unset =
        c.segments.getD (u.segmentIndex n) .unset := by
      show (c.segments.set _ _).getD _ _ = _
      rw [List.getD_eq_getElem?_getD, List.getElem?_set_ne (Ne.symm other), ← List.getD_eq_getElem?_getD]
    rw [same] at set
    have outside : (writeWords (t.start segment) words c.working)[i]? = c.working[i]? :=
      writeWords_outside room (by rw [length]; exact apart i after before)
    obtain ⟨w, held, fits⟩ := h.segments u n named set i after before
    exact ⟨w, outside.trans held, fits⟩

theorem Ccu.promoteIfPending_sets (c : Ccu) :
    c.promoteIfPending.active = c.active ∧ c.promoteIfPending.valid = c.valid ∧ c.promoteIfPending.working = c.working ∧
      c.promoteIfPending.segments = c.segments ∧ c.promoteIfPending.committing = c.committing ∧
      c.promoteIfPending.stage = c.stage := by
  unfold Ccu.promoteIfPending
  split <;> exact ⟨rfl, rfl, rfl, rfl, rfl, rfl⟩

theorem Ccu.SetsLegal.promoteIfPending {c : Ccu} (h : c.SetsLegal) : c.promoteIfPending.SetsLegal := by
  obtain ⟨active, valid, working, segments, committing, _⟩ := c.promoteIfPending_sets
  exact h.of_same active valid working segments fun flight => committing ▸ flight

theorem Ccu.Moves.setsLegal {draws : Nat} {c m : Ccu} (moved : Ccu.Moves draws c m) (sized : c.Sized) (h : c.SetsLegal) :
    m.SetsLegal := by
  cases moved with
  | loaded t _ idle inside length legal => exact Ccu.loadSegment_setsLegal h sized idle inside length legal
  | started _ _ set => exact ⟨h.active, h.segments, fun _ => set⟩
  | failed => exact Ccu.SetsLegal.promoteIfPending (h.of_same rfl rfl rfl rfl fun no => absurd no Bool.false_ne_true)
  | lockNext => exact h.of_same rfl rfl rfl rfl id
  | lineReset =>
    unfold Ccu.lineReset
    split
    · exact h.of_same rfl rfl rfl rfl id
    · exact h.of_same rfl rfl rfl rfl id

theorem replicate_getD_unset {s : SegState} {i : Nat} (set : (List.replicate 16 s).getD i .unset ≠ .unset) : s ≠ .unset := by
  rintro rfl
  refine set ?_
  by_cases inside : i < 16
  · rw [List.getD_eq_getElem _ _ (by simpa using inside), List.getElem_replicate]
  · rw [List.getD_eq_default _ _ (by simpa using inside)]

theorem Ccu.completeCommit_setsLegal {c : Ccu} (h : c.SetsLegal) (flight : c.committing = true) : c.completeCommit.SetsLegal := by
  have full := h.full (h.committing flight)
  refine ⟨fun _ => full, fun t n inside _ i _ before => full i ?_, fun no => absurd no Bool.false_ne_true⟩
  have fits := CalTable.segment_inside inside
  omega

theorem Ccu.load_setsLegal (strap : Bool) {c : Ccu} (sized : c.Sized) (idle : c.committing = false) : (c.load strap).SetsLegal := by
  have unset : c.store.isValid = false → SegState.unset = if c.store.isValid then .same else .unset := fun no => by rw [no]; rfl
  refine ⟨fun valid => CalStore.isValid_legal valid sized.setArea, fun t n inside set i _ before => ?_,
    fun flight => absurd (idle.symm.trans flight) Bool.false_ne_true⟩
  have valid : c.store.isValid = true := by
    by_contra no
    exact replicate_getD_unset set (unset (Bool.eq_false_iff.2 no)).symm
  have working : (c.load strap).working = c.store.setArea := if_pos valid
  have fits := CalTable.segment_inside inside
  rw [working]
  exact CalStore.isValid_legal valid sized.setArea i (by omega)

/-! ### The divider (R8, R9) -/

theorem Ccu.dividerLoad_bounds {c : Ccu} (h : c.SetsLegal) : 1 ≤ c.dividerLoad ∧ c.dividerLoad ≤ 4095 := by
  unfold Ccu.dividerLoad
  split
  · rename_i valid
    obtain ⟨w, held, legal⟩ := h.active valid 3202 (by decide)
    have ppl : c.ppl = w := by
      unfold Ccu.ppl Ccu.word
      rw [List.getD_eq_getElem?_getD, held]
      rfl
    have bounds : 1 ≤ w ∧ w ≤ 4095 := by simpa [wordLegal] using legal
    rwa [ppl]
  · decide

theorem Bpu.Moves.divider {load : Nat} {b m : Bpu} (h : Bpu.Moves load b m) (loaded : 1 ≤ load ∧ load ≤ 4095)
    (stands : 1 ≤ b.divider ∧ b.divider ≤ 4095) : 1 ≤ m.divider ∧ m.divider ≤ 4095 := by
  cases h with
  | free | forward | backward | retired => exact stands
  | counted high => exact ⟨Nat.le_sub_one_of_lt high, (Nat.sub_le _ _).trans stands.2⟩
  | triggered | lineReset => exact loaded

/-- Sized with legal sets: what the changes keep together. -/
theorem Device.Runs.setsLegal {offers replies : Bool} {d t : Device} (h : Device.Runs offers replies d t) :
    d.Sized → d.ccu.SetsLegal → (1 ≤ d.bpu.divider ∧ d.bpu.divider ≤ 4095) →
      t.ccu.SetsLegal ∧ 1 ≤ t.bpu.divider ∧ t.bpu.divider ≤ 4095 := by
  induction h with
  | refl | conditioner | tracker | evaluator | heads | packs | control | drawn | waits => exact fun _ legal divider => ⟨legal, divider⟩
  | trans first _ ih ih' =>
    intro sized legal divider
    obtain ⟨legal, divider⟩ := ih sized legal divider
    exact ih' (first.sized sized) legal divider
  | belt h => exact fun _ legal divider => ⟨legal, h.divider (Ccu.dividerLoad_bounds legal) divider⟩
  | custody h => exact fun sized legal divider => ⟨h.setsLegal sized.ccu legal, divider⟩
  | link h =>
    have ccu := h.touches .ccu (by decide)
    have bpu := h.touches .bpu (by decide)
    intro _ legal divider
    rw [show _ = _ from ccu, show _ = _ from bpu]
    exact ⟨legal, divider⟩
  | answered message _ _ ih =>
    rw [show _ = _ from Device.placeReply_touches message _ .ccu (by decide),
      show _ = _ from Device.placeReply_touches message _ .bpu (by decide)]
    exact ih
  | served message _ _ ih =>
    rw [show _ = _ from Device.placeReply_touches message _ .ccu (by decide),
      show _ = _ from Device.placeReply_touches message _ .bpu (by decide)]
    exact fun sized => ih { sized with }
  | lineOperation c _ _ _ _ ih => exact fun sized => ih (sized.withRtk (Rtk.stages2to7_tableKept c _ _).size)

theorem Ccu.SetsLegal.device {d : Device} (h : d.ccu.SetsLegal) (divider : 1 ≤ d.bpu.divider ∧ d.bpu.divider ≤ 4095)
    (rate : 1 ≤ d.lct.control.rate ∧ d.lct.control.rate ≤ 64) : d.SetsLegal := ⟨h.active, h.segments, h.committing, divider, rate⟩

theorem Device.setsLegal_of_reset {d : Device} {store : CalStore} (ccu : d.ccu = Ccu.reset store) (bpu : d.bpu = Bpu.reset)
    (lct : d.lct = Lct.reset) : d.SetsLegal := by
  refine Ccu.SetsLegal.device ⟨?_, fun t n _ set => ?_, ?_⟩ ?_ ?_
  · rw [ccu]
    exact fun no => absurd no Bool.false_ne_true
  · rw [ccu] at set
    exact absurd rfl (replicate_getD_unset set)
  · rw [ccu]
    exact fun no => absurd no Bool.false_ne_true
  · rw [bpu]
    decide
  · rw [lct]
    decide

theorem Device.tick_setsLegal {d : Device} (h : d.SetsLegal) : d.tick.SetsLegal := by
  obtain ⟨_, _, committing, active, valid, working, segments⟩ := d.ccu.storeWorks_keeps d.draws
  unfold Device.tick
  split
  · exact Ccu.SetsLegal.device (h.ccu.of_same active valid working segments fun flight => committing ▸ flight) h.divider h.rate
  · exact h

theorem Device.sealWriteComplete_setsLegal {d : Device} (h : d.SetsLegal) (flight : d.ccu.committing = true) :
    d.sealWriteComplete.SetsLegal := by
  have completed := Ccu.completeCommit_setsLegal h.ccu flight
  unfold Device.sealWriteComplete
  rw [if_pos flight]
  exact Ccu.SetsLegal.device completed.promoteIfPending (Ccu.dividerLoad_bounds completed) h.rate

theorem Device.opened_setsLegal (a b strap : Bool) (inputs : BitVec 8) {d : Device} (sized : d.Sized) (h : d.SetsLegal)
    (idle : d.ccu.committing = false) : (d.opened a b strap inputs).SetsLegal := by
  have loaded := Ccu.load_setsLegal strap sized.ccu idle
  exact loaded.device (Ccu.dividerLoad_bounds loaded) h.rate

theorem Device.opened_sized (a b strap : Bool) (inputs : BitVec 8) {d : Device} (sized : d.Sized) :
    (d.opened a b strap inputs).Sized := by
  have inputs8 : (initialInputs inputs).length = 8 := rfl
  exact { sized.withCcu (Ccu.load_sized strap sized.ccu) with inputs := inputs8 }

theorem Device.Runs.setsLegal_device {offers replies : Bool} {d t : Device} (h : Device.Runs offers replies d t) (sized : d.Sized)
    (legal : d.SetsLegal) : t.SetsLegal := by
  obtain ⟨sets, divider⟩ := h.setsLegal sized legal.ccu legal.divider
  exact sets.device divider (h.lct_moves.rate legal.rate)

theorem step_setsLegal {s t : State} (sized : s.dev.Sized) (counted : s.dev.CountSealed) (legal : s.dev.SetsLegal)
    (done : step s = .next t) : t.dev.SetsLegal := by
  refine (step_keeps (P := fun d => d.Sized ∧ d.CountSealed ∧ d.SetsLegal) ?event ?sealed ?tick ?restart ?loss ?init done
    ⟨sized, counted, legal⟩).2.2
  case event =>
    intro d e ⟨sized, counted, legal⟩ happened
    obtain ⟨offers, runs⟩ := happened.runs
    exact ⟨runs.sized sized, (happened.countSealed counted).1, runs.setsLegal_device sized legal⟩
  case sealed =>
    exact fun d service flight ⟨sized, counted, legal⟩ => ⟨Device.sealWriteComplete_sized sized,
      (Device.sealWriteComplete_countSealed service flight counted).1, Device.sealWriteComplete_setsLegal legal flight⟩
  case tick =>
    exact fun d ⟨sized, counted, legal⟩ =>
      ⟨Device.tick_sized sized, (Device.tick_countSealed counted).1, Device.tick_setsLegal legal⟩
  case restart =>
    exact fun d ⟨sized, _, _⟩ => ⟨Device.reset_sized (Device.storeAfterCut_setArea sized.ccu) _,
      Device.countSealed_of_reset rfl rfl, Device.setsLegal_of_reset rfl rfl rfl⟩
  case loss =>
    intro d ⟨sized, _, _⟩
    have reset := Device.reset_sized (Device.storeAfterCut_setArea sized.ccu) (d.draws + 1)
    exact ⟨{ reset with }, Device.countSealed_of_reset (store := d.storeAfterCut) rfl rfl,
      Device.setsLegal_of_reset (store := d.storeAfterCut) rfl rfl rfl⟩
  case init =>
    intro a b strap inputs d init ⟨sized, counted, legal⟩
    refine ⟨Device.endOfInit_sized a b strap inputs sized, (Device.endOfInit_countSealed a b strap inputs counted).1, ?_⟩
    rcases Device.endOfInit_cases (offers := false) a b strap inputs d with idle | ⟨_, runs⟩
    · rwa [idle]
    · exact runs.setsLegal_device (Device.opened_sized a b strap inputs sized)
        (Device.opened_setsLegal a b strap inputs sized legal (counted.afterInit init))

/-! ### The stages of a commit (R182) -/

/-- What StoreInStage says of the calibration custody. -/
structure Ccu.InStage (c : Ccu) : Prop where
  resting : c.stage = .resting ↔ c.committing = false
  target : c.committing = true → (if c.target = 0 then c.store.seal0 else c.store.seal1) = none
  erasing : c.stage = .erasing → none ∈ c.store.setArea
  writing : ∀ n, c.stage = .writing n → n ≤ c.working.length ∧ c.store.setArea = c.writtenArea n

theorem Device.storeInStage_iff {d : Device} : d.StoreInStage ↔ d.ccu.InStage :=
  ⟨fun h => ⟨h.resting, h.target, h.erasing, h.writing⟩, fun h => ⟨h.resting, h.target, h.erasing, h.writing⟩⟩

/-- With no commit in flight the store rests. -/
theorem Ccu.InStage.of_rest {c : Ccu} (rests : c.stage = .resting) (idle : c.committing = false) : c.InStage := by
  refine ⟨⟨fun _ => idle, fun _ => rests⟩, fun flight => absurd (idle.symm.trans flight) Bool.false_ne_true, fun erasing => ?_,
    fun n writing => ?_⟩
  · exact StoreStage.noConfusion (rests.symm.trans erasing)
  · exact StoreStage.noConfusion (rests.symm.trans writing)

theorem Ccu.writtenArea_of_same {c m : Ccu} (working : m.working = c.working) (seal0 : m.store.seal0 = c.store.seal0)
    (seal1 : m.store.seal1 = c.store.seal1) (n : Nat) : m.writtenArea n = c.writtenArea n := by
  unfold Ccu.writtenArea
  rw [working, seal0, seal1]

/-- A change of the lock cell, the pending promotion and the commit timer. -/
theorem Ccu.InStage.of_same {c m : Ccu} (h : c.InStage) (stage : m.stage = c.stage) (committing : m.committing = c.committing)
    (working : m.working = c.working) (audit : m.audit = c.audit)
    (store : m.store = { c.store with lockCell := m.store.lockCell }) : m.InStage := by
  have seal0 : m.store.seal0 = c.store.seal0 := by rw [store]
  have seal1 : m.store.seal1 = c.store.seal1 := by rw [store]
  have area : m.store.setArea = c.store.setArea := by rw [store]
  have target : m.target = c.target := by
    unfold Ccu.target
    rw [seal0, audit]
  constructor
  · rw [stage, committing]
    exact h.resting
  · rw [committing, target, seal0, seal1]
    exact h.target
  · rw [stage, area]
    exact h.erasing
  · intro n
    rw [stage, working, area, Ccu.writtenArea_of_same working seal0 seal1]
    exact h.writing n

/-- The target cell of a commit, blanked, is blank, and is still the target (R182). -/
theorem Ccu.target_blanked (c : Ccu) {m : Ccu} (seal0 : m.store.seal0 = (c.store.setSeal c.target none).seal0)
    (seal1 : m.store.seal1 = (c.store.setSeal c.target none).seal1) (audit : m.audit = c.audit) :
    (if m.target = 0 then m.store.seal0 else m.store.seal1) = none := by
  rcases c.target_cases with ⟨target, present⟩ | ⟨target, _⟩
  · rw [target] at seal0 seal1
    split
    · rename_i first
      rcases m.target_cases with ⟨second, _⟩ | ⟨_, absent⟩
      · exact absurd (first.symm.trans second) (by decide)
      · rcases absent with blank | other
        · exact blank
        · exact absurd ((congrArg sealCount seal0).trans (present.trans audit.symm)) other
    · exact seal1
  · rw [target] at seal0
    have first : m.target = 0 := by
      unfold Ccu.target
      rw [seal0]
      rfl
    rw [if_pos first]
    exact seal0

theorem Ccu.Moves.inStage {draws : Nat} {c m : Ccu} (moved : Ccu.Moves draws c m) (sized : c.Sized) (h : c.InStage) : m.InStage := by
  cases moved with
  | loaded _ _ idle => exact .of_rest (h.resting.2 idle) idle
  | started =>
    refine ⟨⟨fun rests => StoreStage.noConfusion rests, fun no => absurd no.symm Bool.false_ne_true⟩, fun _ => ?_, fun _ => ?_,
      fun n writing => StoreStage.noConfusion writing⟩
    · exact c.target_blanked rfl rfl rfl
    · refine erasedArea_blank draws fun none => ?_
      have area : (c.store.setSeal c.target Option.none).setArea = c.store.setArea := CalStore.setSeal_setArea _ _ _
      have length := sized.setArea
      rw [← area, show (c.store.setSeal c.target Option.none).setArea = [] from none] at length
      exact absurd length (by decide)
  | failed =>
    obtain ⟨_, _, _, _, committing, stage⟩ := c.failCommit.promoteIfPending_sets
    exact .of_rest stage committing
  | lockNext => exact h.of_same rfl rfl rfl rfl rfl
  | lineReset =>
    unfold Ccu.lineReset
    split
    · exact h.of_same rfl rfl rfl rfl rfl
    · exact h.of_same rfl rfl rfl rfl rfl

theorem Ccu.writeOn_inStage {c : Ccu} (h : c.InStage) (works : c.stage ≠ .resting) {n : Nat} (fits : n ≤ c.working.length) :
    (c.writeOn n).InStage := by
  have flight : c.committing = true := by
    by_contra idle
    exact works (h.resting.2 (Bool.eq_false_iff.2 idle))
  refine ⟨⟨fun rests => StoreStage.noConfusion rests, fun idle => absurd (idle.symm.trans flight) Bool.false_ne_true⟩,
    fun _ => h.target flight, fun erasing => StoreStage.noConfusion erasing, fun k writing => ?_⟩
  obtain rfl : n = k := StoreStage.writing.inj writing
  exact ⟨fits, Ccu.writtenArea_of_same (c := c) (m := c.writeOn n) rfl rfl rfl n ▸ rfl⟩

theorem Ccu.storeWorks_inStage (draws : Nat) {c : Ccu} (sized : c.Sized) (h : c.InStage) : (c.storeWorks draws).InStage := by
  rcases c.storeWorks_cases draws with ⟨_, same⟩ | ⟨erasing, same⟩ | ⟨erasing, n, fits, same⟩ | ⟨n, m, writing, _, fits, same⟩
  · rwa [same]
  · rw [same]
    have flight : c.committing = true := by
      by_contra idle
      exact StoreStage.noConfusion (erasing.symm.trans (h.resting.2 (Bool.eq_false_iff.2 idle)))
    refine ⟨⟨fun rests => StoreStage.noConfusion rests, fun idle => absurd (idle.symm.trans flight) Bool.false_ne_true⟩,
      fun _ => h.target flight, fun _ => erasedArea_blank draws fun none => ?_, fun n writing => StoreStage.noConfusion writing⟩
    have length := sized.setArea
    rw [none] at length
    exact absurd length (by decide)
  · rw [same]
    exact Ccu.writeOn_inStage h (by rw [erasing]; exact StoreStage.noConfusion) fits
  · rw [same]
    exact Ccu.writeOn_inStage h (by rw [writing]; exact StoreStage.noConfusion) (fits (h.writing n writing).1)

theorem Device.Runs.inStage {offers replies : Bool} {d t : Device} (h : Device.Runs offers replies d t) (sized : d.Sized)
    (stage : d.ccu.InStage) : t.ccu.InStage :=
  (h.ccu_keeps (P := fun c => c.Sized ∧ c.InStage) (fun _ _ _ moved kept => ⟨moved.sized kept.1, moved.inStage kept.1 kept.2⟩)
    ⟨sized.ccu, stage⟩).2

theorem step_storeInStage {s t : State} (sized : s.dev.Sized) (counted : s.dev.CountSealed) (stage : s.dev.StoreInStage)
    (done : step s = .next t) : t.dev.StoreInStage := by
  rw [Device.storeInStage_iff] at *
  refine (step_keeps (P := fun d => d.Sized ∧ d.CountSealed ∧ d.ccu.InStage) ?event ?sealed ?tick ?restart ?loss ?init done
    ⟨sized, counted, stage⟩).2.2
  case event =>
    intro d e ⟨sized, counted, stage⟩ happened
    obtain ⟨offers, runs⟩ := happened.runs
    exact ⟨runs.sized sized, (happened.countSealed counted).1, runs.inStage sized stage⟩
  case sealed =>
    intro d service flight ⟨sized, counted, stage⟩
    refine ⟨Device.sealWriteComplete_sized sized, (Device.sealWriteComplete_countSealed service flight counted).1, ?_⟩
    obtain ⟨_, _, _, _, committing, rests⟩ := d.ccu.completeCommit.promoteIfPending_sets
    rw [Device.sealWriteComplete_ccu flight]
    exact .of_rest rests committing
  case tick =>
    intro d ⟨sized, counted, stage⟩
    refine ⟨Device.tick_sized sized, (Device.tick_countSealed counted).1, ?_⟩
    rcases d.tick_ccu with same | same
    · rwa [same]
    · rw [same]
      exact (Ccu.storeWorks_inStage d.draws sized.ccu stage).of_same rfl rfl rfl rfl rfl
  case restart =>
    exact fun d ⟨sized, _, _⟩ => ⟨Device.reset_sized (Device.storeAfterCut_setArea sized.ccu) _,
      Device.countSealed_of_reset rfl rfl, .of_rest rfl rfl⟩
  case loss =>
    intro d ⟨sized, _, _⟩
    have reset := Device.reset_sized (Device.storeAfterCut_setArea sized.ccu) (d.draws + 1)
    exact ⟨{ reset with }, Device.countSealed_of_reset (store := d.storeAfterCut) rfl rfl, .of_rest rfl rfl⟩
  case init =>
    intro a b strap inputs d init ⟨sized, counted, stage⟩
    refine ⟨Device.endOfInit_sized a b strap inputs sized, (Device.endOfInit_countSealed a b strap inputs counted).1, ?_⟩
    rcases Device.endOfInit_cases (offers := false) a b strap inputs d with idle | ⟨_, runs⟩
    · rwa [idle]
    · have still := counted.afterInit init
      obtain ⟨_, _, committing, rests⟩ := d.ccu.load_keeps strap
      exact runs.inStage (Device.opened_sized a b strap inputs sized)
        (.of_rest (rests.trans (stage.resting.2 still)) (committing.trans still))

/-- Settles O60: the sets hold legal words by the LOADs and the seals, and the store keeps to the stages of a commit. -/
theorem stepsKeepTheSetsLegal : Obligations.StepsKeepTheSetsLegal :=
  ⟨fun _ _ sized counted legal done => step_setsLegal sized counted legal done,
    fun _ _ sized counted stage done => step_storeInStage sized counted stage done⟩

end Sys2Proof.Machine
end

section
/-!
PROOF. The machine, power and INIT (O1 to O5, O53): the dispatch, the part just reset, and the store through a cut and the end of INIT.
-/

namespace Sys2Proof.Machine

/-! ### The dispatch (O1, O2, O53) -/

/-- Settles O1: by the definition of a step. -/
theorem stepPerformsTheFrontCommand : Obligations.StepPerformsTheFrontCommand := fun _ _ _ => ⟨rfl, rfl⟩

/-- Out of service the bytes of a port have no effect. -/
theorem Device.takeBytes_idle (port : Port) (bytes : List Byte) {d : Device} (idle : d.live = false) : d.takeBytes port bytes = d := by
  induction bytes with
  | nil => rfl
  | cons b bytes ih =>
    have same : d.event (Device.takeByte port b) = d := by simp [Device.event, idle]
    show Device.takeBytes port bytes (d.event (Device.takeByte port b)) = d
    rw [same, ih]

/-- Settles O2: a row but the tick is an event, or the bytes of a port, and out of service neither has an effect. -/
theorem everyCommandAnswersNextAndOutOfServiceIdles : Obligations.EveryCommandAnswersNextAndOutOfServiceIdles := by
  refine ⟨fun c s => by cases c <;> exact ⟨_, rfl⟩, fun c s running tick out => ?_⟩
  have idle : s.dev.live = false := Bool.eq_false_iff.2 fun live => out (Device.live_iff.1 live)
  by_cases one : oneEvent c = true
  · obtain ⟨f, row, _⟩ := exec_oneEvent one
    rw [row, State.event_idle idle]
  · cases c with
    | sealWriteComplete => exact State.event_idle idle _
    | discardedFrame port bytes =>
      show Host.Outcome.next (s.onDevice (Device.takeBytes port bytes)) = .next s
      rw [State.onDevice, Device.takeBytes_idle port bytes idle]
    | tick => exact absurd rfl tick
    | _ => exact absurd running one

/-- Settles O53: the part of the factory, and the invariants of a part just reset. -/
theorem resetIsTheFactoryPartAndMeetsTheInvariants : Obligations.ResetIsTheFactoryPartAndMeetsTheInvariants := by
  refine ⟨rfl, rfl, rfl, rfl, rfl, ⟨_, rfl, rfl⟩, Bpu.reset_inOrder.1, Bpu.reset_inOrder.2,
    ⟨Nat.zero_le _, Nat.zero_le _, fun fills => absurd fills (Nat.lt_irrefl 0)⟩, Rtk.betweenSteps_idle rfl rfl,
    Device.linesApart_of_reset rfl rfl, Device.reset_sized List.length_replicate 0, Rtk.reset_areasFit, fun h held => ?_,
    Device.linkInBounds_of_reset rfl rfl rfl, Device.latchesReported_of_reset rfl, Device.countSealed_of_reset rfl rfl,
    Device.setsLegal_of_reset rfl rfl rfl, Device.storeInStage_iff.2 (.of_rest rfl rfl)⟩
  rw [List.eq_of_mem_replicate held]
  exact Head.reset_strikeInStriking

/-! ### Power (O3) -/

/-- Settles O3: a power event is a reset over the store that the cut leaves. -/
theorem powerEventsSetEveryBlockAndKeepTheStore : Obligations.PowerEventsSetEveryBlockAndKeepTheStore := by
  refine ⟨fun s => ⟨s.dev.restart, rfl, ?_, rfl, rfl, rfl, rfl, rfl, rfl, rfl, rfl, rfl, rfl, rfl, rfl, rfl, rfl, rfl,
    Device.storeAfterCut_idle⟩, fun s => ⟨{ s.dev.restart with powered := false }, ?_, rfl, Device.storeAfterCut_idle⟩⟩
  · show Host.Outcome.next (s.onDevice Device.resetPin) = _
    unfold State.onDevice Device.resetPin
    split <;> rfl
  · show Host.Outcome.next (s.onDevice Device.powerLoss) = _
    unfold State.onDevice Device.powerLoss
    split <;> rfl

/-! ### A cut commit (O4) -/

theorem legalAt_wordsLegal : ∀ {position : Nat} {set : List (Option Nat)},
    (∀ i < set.length, ∃ w, set[i]? = some (some w) ∧ wordLegal (position + i) w = true) → wordsLegal position set = true
  | _, [], _ => rfl
  | position, none :: rest, legal => by
    obtain ⟨w, held, _⟩ := legal 0 (Nat.zero_lt_succ _)
    cases held
  | position, some w :: rest, legal => by
    obtain ⟨x, held, fits⟩ := legal 0 (Nat.zero_lt_succ _)
    cases held
    rw [wordsLegal, Bool.and_eq_true]
    refine ⟨fits, legalAt_wordsLegal fun i inside => ?_⟩
    obtain ⟨x, held, fits⟩ := legal (i + 1) (Nat.succ_lt_succ inside)
    exact ⟨x, held, by rwa [show position + 1 + i = position + (i + 1) by omega]⟩

/-- The seal that a store is judged by is one of its two. -/
theorem CalStore.sealOf_cases (st : CalStore) (count : Nat) :
    st.sealOf count = none ∨ st.sealOf count = st.seal0 ∨ st.sealOf count = st.seal1 := by
  have other (x : Option Seal) : (x.filter fun s => s.count == count) = none ∨ (x.filter fun s => s.count == count) = x := by
    cases x with
    | none => exact .inl rfl
    | some s =>
      rw [Option.filter_some]
      exact (ite_eq_or_eq _ _ _).symm
  unfold CalStore.sealOf
  split
  · split
    · rename_i first _
      exact .inr (.inl first.symm)
    · rcases other st.seal1 with none | kept
      · exact .inl none
      · exact .inr (.inr kept)
  · rcases other st.seal1 with none | kept
    · exact .inl none
    · exact .inr (.inr kept)

/-- A store whose set area matches neither of its seals is not valid. -/
theorem CalStore.isValid_of_no_match {st : CalStore} (seal0 : matchesSeal st.setArea st.seal0 = false)
    (seal1 : matchesSeal st.setArea st.seal1 = false) : st.isValid = false := by
  unfold CalStore.isValid
  rcases st.sealOf_cases st.auditCount with absent | same | same
  · rw [absent]
    rfl
  · rwa [same]
  · rwa [same]

/-- While a commit is in flight the store is not valid (R182). -/
theorem Ccu.InStage.invalid {c : Ccu} (h : c.InStage) (sized : c.Sized) (flight : c.committing = true) :
    c.store.isValid = false := by
  cases stage : c.stage with
  | resting => exact absurd (h.resting.1 stage) (by rw [flight]; exact Bool.noConfusion)
  | erasing => exact CalStore.isValid_of_no_match (blank_matches_no_seal (h.erasing stage) _) (blank_matches_no_seal (h.erasing stage) _)
  | writing n =>
    obtain ⟨_, area⟩ := h.writing n stage
    have words : c.working ≠ [] := List.ne_nil_of_length_eq_add_one sized.working
    obtain ⟨no0, no1⟩ := Ccu.writtenArea_matches_no_seal n words
    exact CalStore.isValid_of_no_match (area ▸ no0) (area ▸ no1)

/-- The target seal of a commit in flight is blank already, so that a cut leaves the store as it stands (R185). -/
theorem Ccu.InStage.blank {c : Ccu} (h : c.InStage) (flight : c.committing = true) : c.store.setSeal c.target none = c.store := by
  have target := h.target flight
  unfold CalStore.setSeal
  by_cases zero : c.target = 0
  · rw [if_pos zero] at target ⊢
    rw [← target]
  · rw [if_neg zero] at target ⊢
    rw [← target]

/-- A store with the seal of a legal working copy written is valid (R185, R186). -/
theorem Ccu.sealedStore_isValid {c : Ccu} (counted : c.store.auditCount = c.audit)
    (legal : ∀ i < c.working.length, legalAt c.working i) : c.sealedStore.isValid = true := by
  have words : wordsLegal 1 c.working = true := legalAt_wordsLegal fun i inside => by
    obtain ⟨w, held, fits⟩ := legal i inside
    exact ⟨w, held, by rwa [Nat.add_comm]⟩
  have judge : c.sealedStore.sealOf (c.audit + 1) = some ⟨c.audit + 1, checkSum c.working⟩ := by
    unfold Ccu.sealedStore
    rcases c.target_cases with ⟨target, present⟩ | ⟨target, _⟩
    · rw [target]
      cases seal0 : c.store.seal0 with
      | none => simp [CalStore.setSeal, CalStore.sealOf, seal0]
      | some s =>
        rw [seal0] at present
        have old : s.count = c.audit := present
        simp [CalStore.setSeal, CalStore.sealOf, seal0, old]
    · simp [target, CalStore.setSeal, CalStore.sealOf]
  unfold CalStore.isValid
  rw [Ccu.auditCount_sealed counted, judge]
  show (wordsLegal 1 c.working && checkSum c.working == checkSum c.working) = true
  rw [words, beq_self_eq_true, Bool.and_self]

/-- What a cut finds of a commit in flight: the store where it stands, or with every word written the new set sealed (R185). -/
theorem Device.cutCommit {d : Device} (flight : d.ccu.committing = true) (sized : d.Sized) (stage : d.StoreInStage)
    (counted : d.ccu.store.auditCount = d.ccu.audit) :
    (d.storeAfterCut = d.ccu.store ∧ (if d.ccu.target = 0 then d.storeAfterCut.seal0 else d.storeAfterCut.seal1) = none ∧
        d.storeAfterCut.isValid = false ∧ d.storeAfterCut.auditCount = d.ccu.audit) ∨
      (d.ccu.stage = .writing 3207 ∧ d.storeAfterCut = d.ccu.sealedStore ∧ d.storeAfterCut.auditCount = d.ccu.audit + 1 ∧
        (d.SetsLegal → d.storeAfterCut.isValid = true)) := by
  have inStage := Device.storeInStage_iff.1 stage
  by_cases written : d.ccu.stage = .writing d.ccu.working.length
  · rcases Device.storeAfterCut_written flight with blanked | sealed
    · rw [inStage.blank flight] at blanked
      rw [blanked]
      exact .inl ⟨rfl, stage.target flight, inStage.invalid sized.ccu flight, counted⟩
    · rw [sealed]
      refine .inr ⟨sized.working ▸ written, rfl, Ccu.auditCount_sealed counted, fun legal => ?_⟩
      exact Ccu.sealedStore_isValid counted (sized.working.symm ▸ legal.ccu.full (legal.committing flight))
  · have blanked := Device.storeAfterCut_short flight written
    rw [inStage.blank flight] at blanked
    rw [blanked]
    exact .inl ⟨rfl, stage.target flight, inStage.invalid sized.ccu flight, counted⟩

/-- The area with words written: the first words, and past the last one either all of them or all but the last (R182). -/
theorem Ccu.writtenArea_words {c : Ccu} (sized : c.working.length = 3207) {m : Nat} (fits : m ≤ 3207) :
    (∀ i < 3206, (c.writtenArea m)[i]? = if i < m then c.working[i]? else some none) ∧
      ((c.writtenArea m)[3206]? = some none ∨ (m = 3207 ∧ (c.writtenArea m)[3206]? = c.working[3206]?)) := by
  by_cases short : m < 3207
  · rw [Ccu.writtenArea_part (sized.symm ▸ short)]
    refine ⟨fun i inside => firstWords_word m _ i (by omega), .inl ?_⟩
    rw [firstWords_word m _ 3206 (by omega), if_neg (by omega)]
  · obtain rfl : m = 3207 := by omega
    unfold Ccu.writtenArea
    dsimp only
    rw [sized]
    split
    · refine ⟨fun i inside => ?_, .inl ?_⟩
      · rw [firstWords_word _ _ i (by omega), if_pos inside, if_pos (by omega)]
      · rw [firstWords_word _ _ 3206 (by omega), if_neg (by omega)]
    · refine ⟨fun i inside => ?_, .inr ⟨rfl, ?_⟩⟩
      · rw [firstWords_word _ _ i (by omega)]
      · rw [firstWords_word _ _ 3206 (by omega), if_pos (by omega)]

/-- What the store has written matches neither seal, and holds the first words (R182). -/
theorem Ccu.storeWorks_written {draws : Nat} {c : Ccu} (sized : c.working.length = 3207) {n m : Nat} (fits : m ≤ 3207)
    (works : c.storeWorks draws = c.writeOn n) (stage : (c.storeWorks draws).stage = .writing m) :
    (c.storeWorks draws).store.setArea = c.writtenArea m ∧ matchesSeal (c.writtenArea m) c.store.seal0 = false ∧
      matchesSeal (c.writtenArea m) c.store.seal1 = false := by
  rw [works] at stage ⊢
  cases stage
  have words : c.working ≠ [] := List.ne_nil_of_length_eq_add_one sized
  exact ⟨rfl, Ccu.writtenArea_matches_no_seal n words⟩

/-- Settles O4: a cut finds the store at its stage, and in a millisecond the store goes on through the stages. -/
theorem cutCommitLeavesNoValidStore : Obligations.CutCommitLeavesNoValidStore := by
  refine ⟨fun s c cut powered flight sized stage counted => ?_, fun draws c area sized => ?_⟩
  · have outcome := Device.cutCommit flight sized stage counted
    rcases cut with rfl | rfl
    · refine ⟨{ s.dev.restart with powered := false }, ?_, outcome⟩
      show Host.Outcome.next (s.onDevice Device.powerLoss) = _
      rw [State.onDevice, Device.powerLoss, if_pos powered]
    · refine ⟨s.dev.restart, ?_, outcome⟩
      show Host.Outcome.next (s.onDevice Device.resetPin) = _
      rw [State.onDevice, Device.resetPin, if_pos powered]
  · dsimp only
    have written (n : Nat) (works : c.storeWorks draws = c.writeOn n) (m : Nat) (fits : m ≤ 3207)
        (stage : (c.storeWorks draws).stage = .writing m) :
        matchesSeal (c.storeWorks draws).store.setArea c.store.seal0 = false ∧
          matchesSeal (c.storeWorks draws).store.setArea c.store.seal1 = false ∧
          (∀ i < 3206, (c.storeWorks draws).store.setArea[i]? = if i < m then c.working[i]? else some none) ∧
          ((c.storeWorks draws).store.setArea[3206]? = some none ∨
            (m = 3207 ∧ (c.storeWorks draws).store.setArea[3206]? = c.working[3206]?)) := by
      obtain ⟨same, no0, no1⟩ := Ccu.storeWorks_written sized fits works stage
      rw [same]
      exact ⟨no0, no1, Ccu.writtenArea_words sized fits⟩
    have other {a b : StoreStage} (is : c.stage = a) (differs : a ≠ b) {p : Prop} (isnt : c.stage = b) : p :=
      absurd (is.symm.trans isnt) differs
    rcases c.storeWorks_cases draws with ⟨rests, same⟩ | ⟨erases, same⟩ | ⟨erases, n, fits, same⟩ | ⟨n, k, writes, more, fits, same⟩
    · refine ⟨by rw [same], fun _ => same, other rests StoreStage.noConfusion, fun n _ => other rests StoreStage.noConfusion,
        fun m _ stage => ?_⟩
      rw [same] at stage
      exact other rests StoreStage.noConfusion stage
    · refine ⟨by rw [same]; rfl, other erases StoreStage.noConfusion, fun _ => .inl ?_, fun n _ => other erases StoreStage.noConfusion,
        fun m _ stage => ?_⟩
      · rw [same]
        exact ⟨rfl, erasedArea_blank draws (List.ne_nil_of_length_eq_add_one area),
          fun i inside => erasedArea_word draws _ i (area.symm ▸ inside)⟩
      · rw [same] at stage
        cases stage
    · refine ⟨by rw [same]; rfl, other erases StoreStage.noConfusion, fun _ => .inr ⟨n, sized ▸ fits, by rw [same]; rfl⟩,
        fun n _ => other erases StoreStage.noConfusion, written n same⟩
    · refine ⟨by rw [same]; rfl, other writes StoreStage.noConfusion, other writes StoreStage.noConfusion,
        fun m inside stage => ?_, written k same⟩
      cases writes.symm.trans stage
      exact ⟨k, more, sized ▸ fits (sized.symm ▸ inside), by rw [same]; rfl⟩

/-! ### The end of INIT (O5) -/

theorem Device.opened_touches (a b strap : Bool) (inputs : BitVec 8) (d : Device) :
    Touches [.ccu, .bpu, .lct] d (d.opened a b strap inputs) := by
  intro part other
  cases part <;> first | rfl | exact absurd (by decide) other

/-- Settles O5: the end of INIT is the load, the levels of the encoder and of the inputs, and the latch of an invalid store. -/
theorem endOfInitLoadsTheStore : Obligations.EndOfInitLoadsTheStore := by
  intro a b fitted inputs s powered init
  have locked : (s.dev.ccu.load fitted).store.lockCell =
      some ⟨false, !fitted && (s.dev.ccu.lock.locked || s.dev.ccu.lock.lockNext)⟩ := by cases fitted <;> rfl
  have custody : (s.dev.opened a b fitted inputs).ccu = s.dev.ccu.load fitted := rfl
  obtain ⟨store, _⟩ := s.dev.ccu.load_keeps fitted
  refine ⟨if (s.dev.opened a b fitted inputs).ccu.valid then s.dev.opened a b fitted inputs
    else (s.dev.opened a b fitted inputs).raise .calInvalid, ?_, ?_, ?_, ?_, ?_⟩
  · rw [← Device.endOfInit_eq powered init]
    rfl
  · split
    · exact s.dev.opened_touches a b fitted inputs
    · exact ((s.dev.opened_touches a b fitted inputs).comp (Device.raise_touches _ _)).weaken rfl
  · rw [apply_ite Device.ccu, Device.raise_ccu, ite_self, custody]
    rw [locked] at store
    have eta : s.dev.ccu.load fitted = { s.dev.ccu.load fitted with store := (s.dev.ccu.load fitted).store } := rfl
    rw [eta, store]
    cases fitted <;> rfl
  · rw [apply_ite Device.bpu, Device.raise_bpu, ite_self, apply_ite Device.ccu, Device.raise_ccu, ite_self]
    cases fitted <;> rfl
  · have valid : (s.dev.opened a b fitted inputs).ccu.valid = s.dev.ccu.store.isValid := by cases fitted <;> rfl
    rw [apply_ite Device.lct, Device.raise_lct, valid]
    rfl

end Sys2Proof.Machine
end

section
/-!
PROOF. The belt and its time (O6, O8 to O10): the pulse sources, a new-belt pulse, the tick and the time-outs, and the pause retirement.
-/

namespace Sys2Proof.Machine

/-! ### The pulse sources (O6) -/

theorem encoderPulse_eq_forward (oldA oldB a b : Bool) : encoderPulse oldA oldB a b = some .forward ↔
    (a ≠ oldA ∧ b = oldB ∧ a ≠ b) ∨ (a = oldA ∧ b ≠ oldB ∧ b = a) := by
  revert oldA oldB a b
  decide

theorem encoderPulse_eq_reverse (oldA oldB a b : Bool) : encoderPulse oldA oldB a b = some .reverse ↔
    (a ≠ oldA ∧ b = oldB ∧ a = b) ∨ (a = oldA ∧ b ≠ oldB ∧ b ≠ a) := by
  revert oldA oldB a b
  decide

theorem encoderPulse_eq_none (oldA oldB a b : Bool) : encoderPulse oldA oldB a b = none ↔ (a ≠ oldA ↔ b ≠ oldB) := by
  revert oldA oldB a b
  decide

/-- The encoder levels taken as the reference (R1). -/
def Device.withLevels (a b : Bool) (d : Device) : Device := { d with bpu := { d.bpu with encA := a, encB := b } }

theorem Device.encoderSample_of_pulse {a b : Bool} {p : Direction} {d : Device}
    (pulse : encoderPulse d.bpu.encA d.bpu.encB a b = some p) (source : d.lct.control.freeRun = false) :
    d.encoderSample a b = (d.withLevels a b).pulse p := by
  simp [Device.encoderSample, Device.withLevels, pulse, source]

theorem Device.encoderSample_of_none {a b : Bool} {d : Device} (none : encoderPulse d.bpu.encA d.bpu.encB a b = none) :
    d.encoderSample a b = d.withLevels a b := by
  simp [Device.encoderSample, Device.withLevels, none]

theorem Device.encoderSample_of_freeRun {a b : Bool} {d : Device} (source : d.lct.control.freeRun = true) :
    d.encoderSample a b = d.withLevels a b := by
  unfold Device.encoderSample
  dsimp only
  split
  · rw [if_pos source]
    rfl
  · rfl

/-- An event whose effect is known. -/
theorem State.event_of {s : State} {f : Device → Device} {u : Device} (service : s.dev.InService) (effect : f s.dev = u) :
    s.event f = .next ⟨u.askEventPlace, s.pending⟩ := by
  rw [State.event_next service, effect]

/-- Settles O6: the cases of an encoder sample, and of a pulse of the free-run source. -/
theorem pulseSourcesGiveTheirPulses : Obligations.PulseSourcesGiveTheirPulses := by
  refine ⟨fun a b s service => ⟨fun source => ?_, fun source => State.event_of service (Device.encoderSample_of_freeRun source)⟩,
    fun s service => ⟨fun running source left => State.event_of service ?_, fun idle => State.event_of service ?_⟩⟩
  · have forward (h : _) := State.event_of service
      (Device.encoderSample_of_pulse ((encoderPulse_eq_forward s.dev.bpu.encA s.dev.bpu.encB a b).2 h) source)
    have reverse (h : _) := State.event_of service
      (Device.encoderSample_of_pulse ((encoderPulse_eq_reverse s.dev.bpu.encA s.dev.bpu.encB a b).2 h) source)
    exact ⟨fun edge same apart => forward (.inl ⟨edge, same, apart⟩), fun same edge meet => forward (.inr ⟨same, edge, meet⟩),
      fun edge same meet => reverse (.inl ⟨edge, same, meet⟩), fun same edge apart => reverse (.inr ⟨same, edge, apart⟩),
      fun both => State.event_of service (Device.encoderSample_of_none ((encoderPulse_eq_none _ _ a b).2 both))⟩
  · unfold Device.freeRunPulse
    rw [if_pos (by simp [running, source, left])]
  · unfold Device.freeRunPulse
    rw [if_neg]
    rcases idle with line | source | none
    · simp [line]
    · simp [source]
    · simp [none]

/-! ### A new-belt pulse (O8) -/

theorem olderRetired_eq {l : List Outstanding} (few : l.length ≤ 2) : olderRetired l = if l.length = 2 then l.drop 1 else l := by
  match l, few with
  | [], _ => rfl
  | [o], _ => rfl
  | [o, p], _ => rfl
  | _ :: _ :: _ :: _, few => simp at few

theorem Device.retireOlder_missed {d : Device} (few : d.bpu.outstanding.length ≤ 2) :
    d.retireOlder.lcn.missed = if d.bpu.outstanding.length = 2 then sat16 d.lcn.missed 1 else d.lcn.missed := by
  unfold Device.retireOlder
  match lines : d.bpu.outstanding, few with
  | [], _ => rfl
  | [o], _ => rfl
  | [o, p], _ => exact (Device.declareMissed_belt o _).2.1
  | _ :: _ :: _ :: _, few => simp at few

/-- The trigger on the belt of a new-belt pulse (R8, R10, R12). -/
theorem Device.trigger_lines {d : Device} (few : d.bpu.outstanding.length ≤ 2) :
    d.trigger.bpu.divider = d.ccu.dividerLoad ∧ d.trigger.bpu.nextLine = d.bpu.nextLine + 1 ∧
      d.trigger.bpu.outstanding =
        (if d.bpu.outstanding.length = 2 then d.bpu.outstanding.drop 1 else d.bpu.outstanding) ++ [⟨d.bpu.nextLine, d.bpu.position⟩] ∧
      d.trigger.bpu.mark = d.bpu.mark ∧
      d.trigger.lcn.missed = (if d.bpu.outstanding.length = 2 then sat16 d.lcn.missed 1 else d.lcn.missed) := by
  have belt := d.retireOlder_belt
  have custody : d.retireOlder.ccu = d.ccu := d.retireOlder_touches .ccu (by decide)
  have missed := Device.retireOlder_missed few
  rw [Device.trigger_eq, custody, ← olderRetired_eq few]
  generalize d.retireOlder = e at belt missed ⊢
  unfold Bpu.triggered
  dsimp only
  rw [show _ = _ from belt]
  exact ⟨rfl, rfl, rfl, rfl, missed⟩

/-- A FORWARD pulse moves the belt, and a new-belt pulse in RUNNING counts; the heads then change neither (R4, R8). -/
theorem Device.pulse_forward_keeps (d : Device) :
    let e : Device := { d with bpu := d.bpu.forward }
    let f := if d.bpu.newBelt && d.lct.lineState == .running then e.countDivider else e
    (d.pulse .forward).bpu = f.bpu ∧ (d.pulse .forward).lcn = f.lcn ∧ (d.pulse .forward).lct = f.lct :=
  Device.presentPosition_keeps .forward _

theorem Device.countDivider_of_more {d : Device} (more : 1 < d.bpu.divider) :
    d.countDivider = { d with bpu := { d.bpu with divider := d.bpu.divider - 1 } } := if_neg (Nat.not_le.2 more)

theorem Device.countDivider_of_last {d : Device} (last : d.bpu.divider = 1) : d.countDivider = d.trigger := if_pos last.le

/-- Settles O8: the count of a new-belt pulse, and the trigger when the divider has run down. -/
theorem newBeltPulseCountsAndTriggers : Obligations.NewBeltPulseCountsAndTriggers := by
  intro d
  obtain ⟨bpu, lcn, lct⟩ := d.pulse_forward_keeps
  dsimp only
  have counts : (d.bpu.newBelt && d.lct.lineState == .running) = true ↔ d.lct.lineState = .running ∧ d.bpu.position = d.bpu.mark := by
    rw [Bool.and_eq_true, beq_iff_eq, Bpu.newBelt, beq_iff_eq, and_comm]
  rw [bpu, lcn, lct]
  refine ⟨fun no => ?_, fun yes more => ?_, fun yes last few => ?_⟩
  · rw [if_neg (counts.not.2 no)]
    exact ⟨rfl, rfl, rfl, rfl, rfl⟩
  · rw [if_pos (counts.2 yes), Device.countDivider_of_more (d := { d with bpu := d.bpu.forward }) more]
    exact ⟨rfl, rfl, rfl, rfl, rfl⟩
  · rw [if_pos (counts.2 yes), Device.countDivider_of_last (d := { d with bpu := d.bpu.forward }) last]
    obtain ⟨divider, next, lines, mark, missed⟩ := Device.trigger_lines (d := { d with bpu := d.bpu.forward }) few
    refine ⟨divider, next, ?_, missed⟩
    rw [lines, mark]
    have place : d.bpu.forward.position = d.bpu.forward.mark := by
      rw [Bpu.forward_mark, if_pos yes.2, ← yes.2]
      rfl
    exact congrArg (fun x => _ ++ [Outstanding.mk d.bpu.nextLine x]) place

/-! ### The tick and the time-outs (O9) -/

theorem Timer.after_running (left k : Nat) : Timer.after k (some ⟨left, false⟩) = some ⟨left - k, false⟩ := by
  induction k generalizing left with
  | zero => rfl
  | succ k ih =>
    show Timer.after k (some ⟨left - 1, false⟩) = _
    rw [ih, Nat.sub_sub, Nat.add_comm 1 k]

theorem Timer.due_running (left k : Nat) : (Timer.after k (some ⟨left, false⟩)).due = true ↔ left ≤ k := by
  rw [Timer.after_running]
  simp [Timer.due, Nat.sub_eq_zero_iff_le]

/-- A time-out started between two ticks takes one tick more. -/
theorem Timer.due_fresh (left k : Nat) : (Timer.after k (some ⟨left, true⟩)).due = true ↔ left + 1 ≤ k := by
  cases k with
  | zero => simp [Timer.after, Timer.due]
  | succ k => exact (Timer.due_running left k).trans (Nat.add_le_add_iff_right.symm)

theorem Device.freeRunPulses_eq (d : Device) :
    d.freeRunPulses = if d.lct.lineState = .running ∧ d.lct.control.freeRun = true then d.lct.control.rate else 0 := by
  simp only [Device.freeRunPulses, Bool.and_eq_true, beq_iff_eq]

theorem Device.tick_touches (d : Device) : Touches [.bpu, .sth, .lct, .ccu, .lnk, .draws] d d.tick := by
  unfold Device.tick
  split
  · intro part other
    cases part <;> first | rfl | exact absurd (by decide) other
  · exact Touches.refl _ d

/-- Settles O9: the parts of the tick, and the ticks that a time-out takes. -/
theorem tickRunsUptimeAndEveryTimeoutToItsLength : Obligations.TickRunsUptimeAndEveryTimeoutToItsLength := by
  refine ⟨fun s => ⟨fun off => ?_, fun powered => ⟨s.dev.tick, rfl, s.dev.tick_touches, ?_⟩⟩,
    fun n k _ => ⟨Timer.due_running n k, Timer.due_fresh n k⟩⟩
  · show Host.Outcome.next (s.onDevice Device.tick) = _
    rw [State.onDevice, Device.tick, if_neg (by simp [off])]
  · rw [Device.tick, if_pos powered, ← Device.freeRunPulses_eq]
    exact ⟨rfl, rfl, rfl, rfl, rfl⟩

/-! ### The pause retirement (O10) -/

theorem Device.declareMisseds_missed (l : List Outstanding) (d : Device) (some : l ≠ []) :
    (l.foldl (fun d o => d.declareMissed o) d).lcn.missed = min 65535 (d.lcn.missed + l.length) := by
  have one (o : Outstanding) (d : Device) : (d.declareMissed o).lcn.missed = min (d.lcn.missed + 1) 65535 :=
    (Device.declareMissed_belt o d).2.1
  induction l generalizing d with
  | nil => exact absurd rfl some
  | cons o l ih =>
    rw [List.foldl_cons]
    by_cases last : l = []
    · rw [last, List.foldl_nil, one]
      exact Nat.min_comm _ _
    · rw [ih _ last, one, List.length_cons]
      omega

theorem Device.declareMisseds_pauseTimer (l : List Outstanding) {d : Device} (empty : d.bpu.outstanding = []) :
    (l.foldl (fun d o => d.declareMissed o) d).bpu.pauseTimer = d.bpu.pauseTimer := by
  induction l generalizing d with
  | nil => rfl
  | cons o l ih =>
    rw [List.foldl_cons, ih (by rw [Device.declareMissed_outstanding, empty])]
    exact (Device.declareMissed_belt o d).2.2 empty

theorem Device.declareMisseds_touches (l : List Outstanding) (d : Device) :
    Touches [.lcn, .bpu, .lct] d (l.foldl (fun d o => d.declareMissed o) d) :=
  Touches.fold (fun d o => Device.declareMissed_touches o d) l d

/-- Settles O10: every line outstanding is declared missed, oldest first, when the timer is due. -/
theorem pauseRetirementDeclaresEveryLine : Obligations.PauseRetirementDeclaresEveryLine := by
  intro s service
  refine ⟨fun no => State.event_of service ?_, fun due => ⟨_, State.event_of service ?_, rfl, ?_, ?_, ?_, ?_⟩⟩
  · rw [Device.retireOutstanding, if_neg (by simp [no])]
  · rw [Device.retireOutstanding, if_pos due]
  · exact Device.declareMisseds_outstanding _ _
  · exact Device.declareMisseds_pauseTimer _ rfl
  · exact Device.declareMisseds_missed _ _
  · exact ((Touches.of_bpu s.dev _).comp (Device.declareMisseds_touches _ _)).weaken rfl

end Sys2Proof.Machine
end

section
/-!
PROOF. The line conditioner (O11 to O13): what becomes of a LINE frame, and the declaration of a missed line with the FILL entry that carries it.
-/

namespace Sys2Proof.Machine

/-! ### A LINE frame on its way (O11) -/

/-- A LINE frame with its copy sent downstream, before acceptance (R198). -/
def Device.copied (source : Byte) (payload : List Byte) (d : Device) : Device :=
  if d.lct.control.fwdLines then d.heardUp.forwardDown ⟨kindLine, source, payload⟩ else d.heardUp

theorem Device.forwardDown_lineState (f : Frame) (d : Device) : (d.forwardDown f).lct.lineState = d.lct.lineState := by
  unfold Device.forwardDown
  split
  · exact congrArg Lct.lineState (Device.wakeTx_touches _ .lct (by decide))
  · rfl

/-- The copy of a LINE frame changes neither the belt nor the line state. -/
theorem Device.copied_keeps (source : Byte) (payload : List Byte) (d : Device) :
    (d.copied source payload).bpu = d.bpu ∧ (d.copied source payload).lct.lineState = d.lct.lineState := by
  unfold Device.copied
  split
  · exact ⟨Device.forwardDown_touches _ _ .bpu (by decide), Device.forwardDown_lineState _ _⟩
  · exact ⟨rfl, rfl⟩

theorem exec_lineFrame {source : Byte} {payload : List Byte} {s : State} {u : Device} (service : s.dev.InService)
    (effect : (s.dev.copied source payload).acceptLine payload = u) :
    exec (.lineFrame source payload) s = .next ⟨u.askEventPlace, s.pending⟩ := State.event_of service effect

section
variable {payload : List Byte} {d : Device}

theorem Device.acceptLine_of_idle (idle : d.lct.lineState = .idle) : d.acceptLine payload = d.strayLine := if_pos idle

theorem Device.acceptLine_of_short (line : d.lct.lineState ≠ .idle) (short : payload.length < 8) :
    d.acceptLine payload = { d with lcn := { d.lcn with malformed := sat16 d.lcn.malformed 1 } } := by
  unfold Device.acceptLine
  rw [if_neg line, if_pos short]

theorem Device.presentLine_of_absent {n : Word32} (absent : ∀ o ∈ d.bpu.outstanding, o.line ≠ n) : d.presentLine n = (none, d) := by
  have gone : d.bpu.outstanding.dropWhile (fun o => o.line != n) = [] :=
    List.dropWhile_eq_nil_iff.2 fun o held => bne_iff_ne.2 (absent o held)
  unfold Device.presentLine
  rw [gone]

theorem Device.acceptLine_of_stray (line : d.lct.lineState ≠ .idle) (long : 8 ≤ payload.length)
    (absent : ∀ o ∈ d.bpu.outstanding, o.line ≠ lineNumberOf payload) : d.acceptLine payload = d.strayLine := by
  unfold Device.acceptLine
  rw [if_neg line, if_neg (Nat.not_lt.2 long), Device.presentLine_of_absent absent]

/-! ### A LINE frame for an outstanding line (O12) -/

/-- The lines older than an outstanding one missed, and the line itself left (R13). -/
def Device.presented (older newer : List Outstanding) (o : Outstanding) (d : Device) : Device :=
  let e := older.foldl (fun d o => d.declareMissed o) { d with bpu := { d.bpu with outstanding := o :: newer } }
  { e with bpu := { e.bpu with outstanding := newer, pauseTimer := if newer = [] then none else e.bpu.pauseTimer } }

theorem Device.presentLine_of_outstanding {n : Word32} {pos : Position} {older newer : List Outstanding}
    (lines : d.bpu.outstanding = older ++ ⟨n, pos⟩ :: newer) (others : ∀ o ∈ older, o.line ≠ n) :
    d.presentLine n = (some pos, d.presented older newer ⟨n, pos⟩) := by
  have passed : ∀ o ∈ older, (o.line != n) = true := fun o held => bne_iff_ne.2 (others o held)
  have stops : ((⟨n, pos⟩ : Outstanding).line != n) = false := bne_self_eq_false n
  have front : d.bpu.outstanding.takeWhile (fun o => o.line != n) = older := by
    rw [lines, List.takeWhile_append_of_pos passed, List.takeWhile_cons_of_neg (by simp [stops]), List.append_nil]
  have back : d.bpu.outstanding.dropWhile (fun o => o.line != n) = ⟨n, pos⟩ :: newer := by
    rw [lines, List.dropWhile_append_of_pos passed, List.dropWhile_cons_of_neg (by simp [stops])]
  unfold Device.presentLine Device.presented
  rw [back, front]
  dsimp only
  generalize older.foldl (fun d o => Device.declareMissed o d) { d with bpu := { d.bpu with outstanding := ⟨n, pos⟩ :: newer } } = e
  cases newer <;> rfl

theorem Device.acceptLine_of_outstanding {pos : Position} {older newer : List Outstanding} (line : d.lct.lineState ≠ .idle)
    (long : 8 ≤ payload.length) (lines : d.bpu.outstanding = older ++ ⟨lineNumberOf payload, pos⟩ :: newer)
    (others : ∀ o ∈ older, o.line ≠ lineNumberOf payload) :
    d.acceptLine payload = (d.presented older newer ⟨lineNumberOf payload, pos⟩).acceptOutstanding payload pos := by
  unfold Device.acceptLine
  rw [if_neg line, if_neg (Nat.not_lt.2 long), Device.presentLine_of_outstanding lines others]

theorem Device.acceptOutstanding_of_malformed (pos : Position) (malformed : parseLine payload = none) :
    d.acceptOutstanding payload pos =
      Device.declareMissed ⟨lineNumberOf payload, pos⟩ { d with lcn := { d.lcn with malformed := sat16 d.lcn.malformed 1 } } := by
  unfold Device.acceptOutstanding
  rw [malformed]

/-- A well-formed line joins the line queue, or is missed for its flag, its runs or the queue (R23, R25, R34). -/
theorem Device.acceptOutstanding_of_parsed {status : BarStatus} {barRuns : List (Nat × Nat)} (pos : Position)
    (parsed : parseLine payload = some (status, barRuns)) :
    d.acceptOutstanding payload pos =
      if lineOverflow payload = true ∨ 64 < (d.ccu.condition barRuns).length ∨ 4 ≤ d.lcn.queue.length ∨ 0 < d.lcn.overflow then
        d.declareMissed ⟨lineNumberOf payload, pos⟩
      else
        { d with lcn := { d.lcn with
          queue := d.lcn.queue ++ [⟨.line status (d.ccu.condition barRuns), lineNumberOf payload, pos, d.lcn.trailing⟩]
          trailing := 0, expected := lineNumberOf payload + 1 } } := by
  have four : queueCapacity = 4 := rfl
  unfold Device.acceptOutstanding
  rw [parsed]
  dsimp only
  by_cases overflowed : lineOverflow payload = true
  · rw [if_pos overflowed, if_pos (.inl overflowed)]
  · by_cases many : 64 < (d.ccu.condition barRuns).length
    · rw [if_neg overflowed, if_pos many, if_pos (.inr (.inl many))]
    · rw [if_neg overflowed, if_neg many]
      unfold Device.queueLine
      by_cases room : d.lcn.queue.length < 4 ∧ d.lcn.overflow = 0
      · rw [if_pos (by simp [four, room]), if_neg]
        rintro (flag | runs | full | fills)
        exacts [overflowed flag, many runs, absurd room.1 (Nat.not_lt.2 full), absurd room.2 fills.ne']
      · rw [if_neg (by simpa [four] using room), if_pos]
        refine .inr (.inr ?_)
        by_cases short : d.lcn.queue.length < 4
        · exact .inr (Nat.pos_of_ne_zero fun none => room ⟨short, none⟩)
        · exact .inl (Nat.not_lt.1 short)

/-- What becomes of an outstanding line (R23, R25, R34). -/
theorem Device.acceptOutstanding_outcome (payload : List Byte) (pos : Position) (d : Device) :
    match parseLine payload with
    | none => d.acceptOutstanding payload pos = Device.declareMissed ⟨lineNumberOf payload, pos⟩
        { d with lcn := { d.lcn with malformed := sat16 d.lcn.malformed 1 } }
    | some (status, barRuns) =>
      if lineOverflow payload = true ∨ 64 < (d.ccu.condition barRuns).length ∨ 4 ≤ d.lcn.queue.length ∨ 0 < d.lcn.overflow then
        d.acceptOutstanding payload pos = d.declareMissed ⟨lineNumberOf payload, pos⟩
      else
        d.acceptOutstanding payload pos = { d with lcn := { d.lcn with
          queue := d.lcn.queue ++ [⟨.line status (d.ccu.condition barRuns), lineNumberOf payload, pos, d.lcn.trailing⟩]
          trailing := 0, expected := lineNumberOf payload + 1 } } := by
  cases parsed : parseLine payload with
  | none => exact Device.acceptOutstanding_of_malformed pos parsed
  | some found =>
    obtain ⟨status, barRuns⟩ := found
    have taken := Device.acceptOutstanding_of_parsed (d := d) pos parsed
    dsimp only
    split
    · rename_i missed
      exact taken.trans (if_pos missed)
    · rename_i joined
      exact taken.trans (if_neg joined)

end

/-- Settles O11: the tests of acceptance that a frame fails before its line is known. -/
theorem lineFrameThatIsNotTaken : Obligations.LineFrameThatIsNotTaken := by
  intro source payload s service
  obtain ⟨belt, line⟩ := s.dev.copied_keeps source payload
  refine ⟨fun idle => exec_lineFrame service (Device.acceptLine_of_idle (line.trans idle)),
    fun after short => exec_lineFrame service (Device.acceptLine_of_short (line ▸ after) short),
    fun after long absent => exec_lineFrame service (Device.acceptLine_of_stray (line ▸ after) long (belt ▸ absent))⟩

/-- Settles O12: the lines older than it are missed, and the line joins the queue or is missed itself. -/
theorem lineFrameForAnOutstandingLine : Obligations.LineFrameForAnOutstandingLine := by
  intro source payload s older newer pos service after long lines others
  obtain ⟨belt, line⟩ := s.dev.copied_keeps source payload
  exact ⟨_, exec_lineFrame service (Device.acceptLine_of_outstanding (line ▸ after) long (belt ▸ lines) others),
    Device.acceptOutstanding_outcome payload pos _⟩

/-! ### Missed lines (O13) -/

/-- The line control that a lost line leaves (R165). -/
def Lct.lineLost (l : Lct) : Lct :=
  if l.lineState = .running then { l.raise .lineLoss with lineState := .paused, haltCause := .lineLoss } else l.raise .lineLoss

theorem Device.lineLoss_lct (d : Device) : d.lineLoss.lct = d.lct.lineLost := by
  unfold Device.lineLoss Device.pauseLine Lct.lineLost
  rw [apply_ite Device.lct]
  rfl

theorem Device.lineLoss_lcn (d : Device) : d.lineLoss.lcn = d.lcn := d.lineLoss_belt.2.1

/-- The FILL entry of 256 missed lines placed (R28). -/
def Device.fillPlaced (d : Device) : Device :=
  { d with lcn := { d.lcn with
    queue := d.lcn.queue ++ [⟨.fill, d.lcn.expected + 255, d.lcn.lastDeclared.pos -
      BitVec.ofNat 48 ((d.lcn.lastDeclared.line - (d.lcn.expected + 255)).toNat * d.ccu.ppl), 255⟩]
    expected := d.lcn.expected + 256
    trailing := min (d.lcn.overflow - 1) 255
    overflow := d.lcn.overflow - 1 - min (d.lcn.overflow - 1) 255 } }

theorem Device.placeFillEntry_of_due {d : Device} (fills : 0 < d.lcn.overflow) (room : d.lcn.queue.length < 4) :
    d.placeFillEntry = if 255 ≤ d.lcn.overflow - 1 then d.fillPlaced.lineLoss else d.fillPlaced := by
  have rest (n : Nat) : n - 255 = n - min n 255 := by omega
  have left : 255 + d.lcn.overflow - 256 = d.lcn.overflow - 1 := by omega
  unfold Device.placeFillEntry Device.fillPlaced
  dsimp only
  rw [if_pos (by simp [fills, room, queueCapacity]), left, rest (d.lcn.overflow - 1)]

theorem Device.placeFillEntry_of_full {d : Device} (full : d.lcn.queue.length = 4) : d.placeFillEntry = d :=
  if_neg (by simp [full, queueCapacity])

theorem Device.placeFillEntry_lastDeclared (d : Device) : d.placeFillEntry.lcn.lastDeclared = d.lcn.lastDeclared := by
  unfold Device.placeFillEntry
  dsimp only
  split
  · split
    · rw [Device.lineLoss_lcn]
    · rfl
  · rfl

/-- A line declared missed before it is counted in the fills (R24). -/
def Device.declared (o : Outstanding) (d : Device) : Device :=
  Device.raise { d with lcn := { d.lcn with missed := sat16 d.lcn.missed 1, lastDeclared := o } } .lineMissed

theorem Device.declareMissed_eq (o : Outstanding) (d : Device) : d.declareMissed o =
    if d.lcn.trailing < 255 then
      (if d.lcn.trailing + 1 = 255 then
        Device.lineLoss { d.declared o with lcn := { (d.declared o).lcn with trailing := d.lcn.trailing + 1 } }
      else { d.declared o with lcn := { (d.declared o).lcn with trailing := d.lcn.trailing + 1 } })
    else Device.placeFillEntry { d.declared o with lcn := { (d.declared o).lcn with overflow := moreOverflow d.lcn.overflow } } := rfl

theorem Device.declareMissed_of_below {d : Device} (o : Outstanding) (below : d.lcn.trailing < 254) :
    d.declareMissed o = { d.declared o with lcn := { (d.declared o).lcn with trailing := d.lcn.trailing + 1 } } := by
  rw [Device.declareMissed_eq, if_pos (by omega), if_neg (by omega)]

theorem Device.declareMissed_of_last {d : Device} (o : Outstanding) (last : d.lcn.trailing = 254) :
    d.declareMissed o = Device.lineLoss { d.declared o with lcn := { (d.declared o).lcn with trailing := 255 } } := by
  rw [Device.declareMissed_eq, last, if_pos (by decide), if_pos rfl]

theorem Device.declareMissed_of_top {d : Device} (o : Outstanding) (top : d.lcn.trailing = 255) (inRange : d.lcn.overflow < 2 ^ 32 - 1) :
    d.declareMissed o =
      Device.placeFillEntry { d.declared o with lcn := { (d.declared o).lcn with overflow := d.lcn.overflow + 1 } } := by
  have more : moreOverflow d.lcn.overflow = d.lcn.overflow + 1 := if_pos inRange
  rw [Device.declareMissed_eq, top, if_neg (by decide), more]

theorem Device.declareMissed_lastDeclared (o : Outstanding) (d : Device) : (d.declareMissed o).lcn.lastDeclared = o := by
  rw [Device.declareMissed_eq]
  split
  · rw [apply_ite Device.lcn, Device.lineLoss_lcn, ite_self]
    rfl
  · exact Device.placeFillEntry_lastDeclared _

/-- Settles O13: a declaration by the fills it finds, and the FILL entry. -/
theorem missedLinesAreCountedAndCarriedByFillEntries : Obligations.MissedLinesAreCountedAndCarriedByFillEntries := by
  refine ⟨fun o d => ⟨Device.declareMissed_touches o d, (Device.declareMissed_belt o d).2.1, Device.declareMissed_lastDeclared o d,
    fun below => ?_, fun last => ?_, fun top full inRange => ?_, fun top room inRange => Device.declareMissed_of_top o top inRange⟩,
    fun d fills room => ?_⟩
  · rw [Device.declareMissed_of_below o below]
    exact ⟨rfl, rfl, rfl⟩
  · rw [Device.declareMissed_of_last o last, Device.lineLoss_lcn, Device.lineLoss_lct]
    exact ⟨rfl, rfl⟩
  · rw [Device.declareMissed_of_top o top inRange, Device.placeFillEntry_of_full (d :=
      { d.declared o with lcn := { (d.declared o).lcn with overflow := d.lcn.overflow + 1 } }) full]
    exact ⟨rfl, rfl, rfl⟩
  · have touched := d.placeFillEntry_touches
    dsimp only
    rw [Device.placeFillEntry_of_due fills room] at touched ⊢
    rw [apply_ite Device.lcn, apply_ite Device.lct, Device.lineLoss_lcn, ite_self, Device.lineLoss_lct]
    exact ⟨rfl, rfl, rfl, rfl, rfl, touched.weaken rfl⟩

end Sys2Proof.Machine
end

section
/-!
PROOF. The tracker's own steps (O16 to O18): the line operation of an entry, the replay of a fill, and the offer walk.
-/

namespace Sys2Proof.Machine

/-! ### Sorting (O18) -/

section
variable {α : Type} {before : α → α → Bool} {R : α → α → Prop}

theorem insertAfterEqual_perm (x : α) (l : List α) : (insertAfterEqual before x l).Perm (x :: l) := by
  induction l with
  | nil => exact .refl _
  | cons a l ih =>
    unfold insertAfterEqual
    split
    · exact .refl _
    · exact (ih.cons a).trans (.swap x a l)

theorem insertAll_perm (l acc : List α) : (l.foldl (fun acc x => insertAfterEqual before x acc) acc).Perm (l ++ acc) := by
  induction l generalizing acc with
  | nil => exact .refl _
  | cons x l ih => exact (ih _).trans (((insertAfterEqual_perm x acc).append_left l).trans List.perm_middle)

theorem sortWith_perm (l : List α) : (sortWith before l).Perm l := (insertAll_perm l []).trans (by rw [List.append_nil])

/-- An order that the sort follows for two elements met one after the other. -/
def Follows (before : α → α → Bool) (R : α → α → Prop) (a x : α) : Prop := (before x a = true → R x a) ∧ (before x a = false → R a x)

theorem insertAfterEqual_pairwise (trans : ∀ a b c, R a b → R b c → R a c) {x : α} {l : List α}
    (follows : ∀ a ∈ l, Follows before R a x) (sorted : l.Pairwise R) : (insertAfterEqual before x l).Pairwise R := by
  induction l with
  | nil => exact List.pairwise_singleton R x
  | cons a l ih =>
    obtain ⟨first, rest⟩ := List.pairwise_cons.1 sorted
    have first' := follows a List.mem_cons_self
    unfold insertAfterEqual
    by_cases smaller : before x a = true
    · rw [if_pos smaller]
      refine List.pairwise_cons.2 ⟨fun y held => ?_, sorted⟩
      rcases List.mem_cons.1 held with rfl | later
      · exact first'.1 smaller
      · exact trans _ _ _ (first'.1 smaller) (first y later)
    · rw [if_neg smaller]
      refine List.pairwise_cons.2 ⟨fun y held => ?_, ih (fun b held => follows b (List.mem_cons_of_mem _ held)) rest⟩
      rcases List.mem_cons.1 ((insertAfterEqual_perm x l).mem_iff.1 held) with rfl | later
      · exact first'.2 (Bool.eq_false_iff.2 smaller)
      · exact first y later

theorem insertAll_pairwise (trans : ∀ a b c, R a b → R b c → R a c) {l acc : List α} (met : l.Pairwise (Follows before R))
    (held : ∀ a ∈ acc, ∀ x ∈ l, Follows before R a x) (sorted : acc.Pairwise R) :
    (l.foldl (fun acc x => insertAfterEqual before x acc) acc).Pairwise R := by
  induction l generalizing acc with
  | nil => exact sorted
  | cons x l ih =>
    obtain ⟨next, rest⟩ := List.pairwise_cons.1 met
    refine ih rest (fun a inside y later => ?_)
      (insertAfterEqual_pairwise trans (fun a inside => held a inside x List.mem_cons_self) sorted)
    rcases List.mem_cons.1 ((insertAfterEqual_perm x acc).mem_iff.1 inside) with rfl | old
    · exact next y later
    · exact held a old y (List.mem_cons_of_mem _ later)

theorem sortWith_pairwise (trans : ∀ a b c, R a b → R b c → R a c) {l : List α} (met : l.Pairwise (Follows before R)) :
    (sortWith before l).Pairwise R := insertAll_pairwise trans met (fun _ none => absurd none List.not_mem_nil) .nil

end

/-! ### The offer walk (O18) -/

theorem posDiff_of_near {p base : Position} (near : (p - base).toNat < 2 ^ 47) : posDiff p base = ((p - base).toNat : Int) :=
  BitVec.toInt_eq_toNat_of_lt (by omega)

/-- Near a base, the modular difference orders positions by their distances from it. -/
theorem posDiff_neg_iff {p q base : Position} (hp : (p - base).toNat < 2 ^ 47) (hq : (q - base).toNat < 2 ^ 47) :
    posDiff p q < 0 ↔ (p - base).toNat < (q - base).toNat := by
  have ep := posDiff_of_near hp
  have eq := posDiff_of_near hq
  have both : posDiff p q = posDiff p base - posDiff q base := posDiff_within (by omega) (by omega)
  omega

/-- The entries that wait, in index order. -/
def Rtk.waitingEntries (k : Rtk) : List Nat := (List.range 64).filter fun i => (k.region i).state == .closedWait

theorem Rtk.walkOrder_perm (k : Rtk) : k.walkOrder.Perm k.waitingEntries := sortWith_perm _

theorem Rtk.walkOrder_sorted {k : Rtk} {base : Position} (near : ∀ i ∈ k.walkOrder, ((k.region i).born - base).toNat < 2 ^ 47) :
    k.walkOrder.Pairwise fun i j => ((k.region i).born - base).toNat < ((k.region j).born - base).toNat ∨
      ((k.region i).born = (k.region j).born ∧ i < j) := by
  have close (i : Nat) (held : i ∈ k.waitingEntries) := near i (k.walkOrder_perm.mem_iff.2 held)
  refine sortWith_pairwise (fun a b c ab bc => ?_) (List.Pairwise.imp_of_mem (fun {i j} hi hj below => ?_)
    (List.Pairwise.filter _ List.pairwise_lt_range))
  · rcases ab with less | ⟨same, index⟩ <;> rcases bc with less' | ⟨same', index'⟩
    · exact .inl (less.trans less')
    · exact .inl (same' ▸ less)
    · exact .inl (same ▸ less')
    · exact .inr ⟨same.trans same', index.trans index'⟩
  · have order := posDiff_neg_iff (close j hj) (close i hi)
    refine ⟨fun first => .inl (order.1 (of_decide_eq_true first)), fun later => ?_⟩
    have after : ((k.region i).born - base).toNat ≤ ((k.region j).born - base).toNat :=
      Nat.not_lt.1 fun less => of_decide_eq_false later (order.2 less)
    rcases after.lt_or_eq with less | same
    · exact .inl less
    · exact .inr ⟨sub_left_injective (BitVec.eq_of_toNat_eq same), below⟩

theorem Device.offer_of_refused {d : Device} {i : Nat} (refused : (d.evaluate (d.rtk.region i)).1 = .refuse) :
    d.offer i = (d.evaluate (d.rtk.region i)).2 := by
  unfold Device.offer
  split
  · rename_i e answer
    rw [answer]
  · rename_i e no answer
    rw [answer] at refused
    exact absurd refused no

theorem Device.offer_of_taken {d : Device} {i : Nat} (taken : (d.evaluate (d.rtk.region i)).1 ≠ .refuse) :
    (d.offer i).rtk = (d.evaluate (d.rtk.region i)).2.rtk.release i := by
  unfold Device.offer
  split
  · rename_i e answer
    rw [answer] at taken
    exact absurd rfl taken
  · rename_i e no answer
    rw [answer]

/-- Settles O18: a walk offers the waiting entries in their order, and an entry that is taken is released. -/
theorem offerWalkOffersEveryWaitingEntry : Obligations.OfferWalkOffersEveryWaitingEntry := by
  refine ⟨fun s service idle => ⟨fun pending => State.event_of service ?_, fun none => State.event_of service ?_⟩,
    fun k => ⟨k.walkOrder_perm, fun base near => Rtk.walkOrder_sorted near⟩, fun d i refused => Device.offer_of_refused refused,
    fun d i inside taken => ?_⟩
  · rw [Device.walkBetweenLines, if_pos (by simp [Device.betweenLines, idle, pending])]
    rfl
  · rw [Device.walkBetweenLines, if_neg (by simp [none])]
  · rw [Device.offer_of_taken taken]
    have same := Device.evaluate_rtk (d.rtk.region i) d
    unfold Rtk.sameButRetry at same
    generalize (d.evaluate (d.rtk.region i)).2.rtk = k at same ⊢
    rw [Rtk.region_release_same (by rw [same]; exact inside), same]
    exact ⟨rfl, rfl⟩

/-! ### Fills (O17) -/

theorem Device.takeNext_of_busy (wanted : QueueEntry → Bool) {d : Device} {w : Work} (busy : d.rtk.work = some w) :
    d.takeNext wanted = d := if_neg (by simp [Device.betweenLines, busy])

theorem Device.takeNext_of_entry {wanted : QueueEntry → Bool} {d : Device} {e : QueueEntry} {rest : List QueueEntry}
    (idle : d.rtk.work = none) (queue : d.settle.lcn.queue = e :: rest) (wants : wanted e = true) :
    d.takeNext wanted = d.settle.takeEntry := by
  unfold Device.takeNext
  rw [if_pos (by simp [Device.betweenLines, idle]), queue]
  exact if_pos wants

theorem Device.takeNext_of_empty (wanted : QueueEntry → Bool) {d : Device} (queue : d.settle.lcn.queue = []) :
    d.takeNext wanted = d := by
  unfold Device.takeNext
  rw [queue]
  exact ite_self d

theorem Device.trackFill_eq {d : Device} {t : Terms} (terms : d.hev.terms = some t) :
    d.trackFill = (d.takeNext fun e => 0 < e.replays).nextFill t := by
  unfold Device.trackFill
  rw [terms]

theorem Device.nextFill_of_left {d : Device} {w : Work} (t : Terms) (work : d.rtk.work = some w) (left : w.done < w.entry.replays) :
    d.nextFill t = d.replayOne t w := by
  unfold Device.nextFill
  rw [work]
  exact if_neg (Nat.sub_ne_zero_of_lt left)

/-- Settles O17: the fill of the entry under way, or of the entry that the tracker takes for it. -/
theorem fillReplaysThePreviousLine : Obligations.FillReplaysThePreviousLine := by
  intro s t service empty terms d w source
  have found : s.dev.trackFill = d.replayOne t w ∧ d.rtk.cur = ⟨[], []⟩ ∧ w.done < w.entry.replays := by
    rw [Device.trackFill_eq terms]
    rcases source with ⟨work, left, rfl⟩ | ⟨idle, ⟨rest, queue⟩, fresh, fills, rfl⟩
    · rw [Device.takeNext_of_busy _ work]
      exact ⟨Device.nextFill_of_left t work left, empty, left⟩
    · have taken := Device.takeEntry_rtk queue
      have work : s.dev.settle.takeEntry.rtk.work = some w := by
        rw [taken, ← fresh]
      rw [Device.takeNext_of_entry idle queue (decide_eq_true fills)]
      refine ⟨Device.nextFill_of_left t work (fresh ▸ fills), ?_, fresh ▸ fills⟩
      rw [taken]
      exact Device.settle_cur s.dev empty
  obtain ⟨effect, cur, left⟩ := found
  obtain ⟨prevLine, prevRuns, done, processed, work⟩ := Device.replayOne_rtk t w d cur
  refine ⟨_, State.event_of service effect, rfl, rfl, prevLine, ?_, processed, done, ?_, (Device.replayOne_touches t w d).weaken rfl⟩
  · exact prevRuns
  · rw [work]
    exact if_congr (and_congr_right fun _ => by omega) rfl rfl

/-! ### Line operations (O16) -/

theorem Device.performEntry_of_none {d : Device} (t : Terms) (work : d.rtk.work = none) : d.performEntry t = d := by
  unfold Device.performEntry
  rw [work]

theorem Device.performEntry_of_work {d : Device} {w : Work} (t : Terms) (work : d.rtk.work = some w) :
    d.performEntry t = (Device.replayAll t w.left d).performLine t := by
  unfold Device.performEntry
  rw [work]

theorem Device.replayAll_succ {d : Device} {w : Work} (t : Terms) (n : Nat) (work : d.rtk.work = some w) (left : w.left ≠ 0) :
    Device.replayAll t (n + 1) d = Device.replayAll t n (d.replayOne t w) := by
  rw [Device.replayAll, work]
  exact if_neg left

theorem Device.replayOne_work (t : Terms) (w : Work) (d : Device) :
    (d.replayOne t w).rtk.work =
      if w.entry.content = .fill && (Work.mk w.entry (w.done + 1)).left = 0 then none else some ⟨w.entry, w.done + 1⟩ := rfl

/-- An entry with a fill left is performed by its next fill and then what is left of it (R48). -/
theorem Device.performEntry_step {d : Device} {w : Work} (t : Terms) (work : d.rtk.work = some w) (more : w.done < w.entry.replays) :
    d.performEntry t = (d.replayOne t w).performEntry t := by
  have left : w.left = (Work.mk w.entry (w.done + 1)).left + 1 := by
    unfold Work.left
    dsimp only
    omega
  rw [Device.performEntry_of_work t work, left, Device.replayAll_succ t _ work (by omega)]
  have next := Device.replayOne_work t w d
  generalize d.replayOne t w = e at next ⊢
  split at next
  · rename_i last
    simp only [Bool.and_eq_true, decide_eq_true_eq] at last
    rw [last.2, Device.performEntry_of_none t next, Device.replayAll, Device.performLine, next]
  · rw [Device.performEntry_of_work t next]

theorem Device.performLine_of_line {d : Device} {w : Work} {status : BarStatus} {runs : List Run} (t : Terms)
    (work : d.rtk.work = some w) (line : w.entry.content = .line status runs) :
    d.performLine t =
      let e := d.lineOperation (d.lineContext t w.entry.line w.entry.pos false) runs
      { e with rtk := { e.rtk with work := none } } := by
  unfold Device.performLine
  rw [work]
  dsimp only
  rw [line]

theorem Rtk.anyUntracked_iff (k : Rtk) : k.anyUntracked = true ↔ ∃ x ∈ k.cur.runs ++ k.cur.gaps, x.label = .untracked := by
  simp only [Rtk.anyUntracked, List.any_eq_true, beq_iff_eq]

theorem Rtk.accumulateAll_cur (c : LineContext) (l : List Span) (k : Rtk) : (l.foldl (Rtk.accumulate c) k).cur = k.cur :=
  (Rtk.tableOnly_fold (Rtk.accumulate_tableOnly c) l k).cur

/-- The stages of a line operation, each over the runs or gaps that the one before it has left. -/
theorem Rtk.stages2to7_eq (c : LineContext) (runs : List Run) (k : Rtk) :
    let k2 := runs.foldl (Rtk.matchRun c) k
    let summed := k2.cur.runs.foldl Rtk.markEdge (k2.cur.runs.foldl (Rtk.accumulate c) k2)
    let k3 := summed.touchedRoots.foldl (Rtk.pushAnchor c) summed
    let k3 := if c.isFill then summed.touchedRoots.foldl Rtk.countFill k3 else k3
    let k4 := (gapsOf c.sums k3.cur.runs).foldl (Rtk.matchGap c) k3
    let k4 := k4.cur.gaps.foldl (Rtk.accumulate c) k4
    k.stages2to7 c runs = (k4.stage5.stage6 c.line).stage7 false := by
  unfold Rtk.stages2to7 Rtk.stage3 Rtk.stage4
  dsimp only
  rw [Rtk.accumulateAll_cur c _ (runs.foldl (Rtk.matchRun c) k)]

/-- The end of a line operation whose stages 2 to 7 have left a tracker (R64, R66). -/
theorem Device.lineOperation_eq (c : LineContext) (runs : List Run) (d : Device) :
    let k := d.rtk.stages2to7 c runs
    let e := { d with rtk := k }
    let e := if ∃ x ∈ k.cur.runs ++ k.cur.gaps, x.label = .untracked then e.raise .tableExhausted else e
    let e := k.walkOrder.foldl Device.offer { e with rtk := { k with retryPending := false } }
    d.lineOperation c runs = { e with rtk := { e.rtk with
      table := e.rtk.table.map fun r => { r with touched := false }
      prev := e.rtk.cur
      prevLine := some ⟨c.line, c.pos⟩
      cur := ⟨[], []⟩
      linesProcessed := if c.isFill then e.rtk.linesProcessed else min (e.rtk.linesProcessed + 1) 65535 } } := by
  unfold Device.lineOperation
  generalize d.rtk.stages2to7 c runs = k
  by_cases untracked : k.anyUntracked = true
  · dsimp only
    rw [if_pos untracked, if_pos ((Rtk.anyUntracked_iff k).1 untracked)]
    rfl
  · dsimp only
    rw [if_neg untracked, if_neg (mt (Rtk.anyUntracked_iff k).2 untracked)]
    rfl

/-- The place of a FILL entry does not look at the tracker. -/
theorem Device.placeFillEntry_lcn_withRtk (k : Rtk) (d : Device) :
    (Device.placeFillEntry { d with rtk := k }).lcn = d.placeFillEntry.lcn := by
  unfold Device.placeFillEntry
  dsimp only
  split
  · rw [apply_ite Device.lcn, apply_ite Device.lcn, Device.lineLoss_lcn, Device.lineLoss_lcn]
  · rfl

/-- The conditioner as the taking of an entry leaves it (R26, R28). -/
theorem Device.takeEntry_lcn {d : Device} {e : QueueEntry} {rest : List QueueEntry} (queue : d.lcn.queue = e :: rest) :
    d.takeEntry.lcn = (Device.placeFillEntry { d with lcn := { d.lcn with
      queue := rest
      lastStatus := match e.content with | .line status _ => some status | .fill => d.lcn.lastStatus } }).lcn := by
  unfold Device.takeEntry
  rw [queue]
  exact Device.placeFillEntry_lcn_withRtk { d.rtk with work := some ⟨e, 0⟩ } { d with lcn := _ }

theorem Device.trackLine_eq {d : Device} {t : Terms} (terms : d.hev.terms = some t) :
    d.trackLine = (d.takeNext fun _ => true).performEntry t := by
  unfold Device.trackLine
  rw [terms]

theorem Device.trackLine_of_noTerms {d : Device} (terms : d.hev.terms = none) : d.trackLine = d := by
  unfold Device.trackLine
  rw [terms]

/-- Settles O16: the fills of an entry and its line, the stages of a line operation, and the entry that the tracker takes. -/
theorem lineOperationPerformsTheEntry : Obligations.LineOperationPerformsTheEntry := by
  refine ⟨fun t d => ⟨Device.performEntry_of_none t, fun w work => ⟨Device.performEntry_step t work, fun status runs done line => ?_⟩⟩,
    Device.lineOperation_eq, Rtk.stages2to7_eq, fun s service empty => ⟨fun t terms => ⟨fun e rest idle queue => ?_, fun w work more => ?_,
      fun idle queue => State.event_of service ?_⟩, fun terms => State.event_of service (Device.trackLine_of_noTerms terms)⟩⟩
  · rw [Device.performEntry_of_work t work, show w.left = 0 by unfold Work.left; omega]
    exact Device.performLine_of_line t work line
  · have taken := Device.takeEntry_rtk queue
    have work : s.dev.settle.takeEntry.rtk.work = some ⟨e, 0⟩ := by rw [taken]
    have cur : s.dev.settle.takeEntry.rtk.cur = ⟨[], []⟩ := by
      rw [taken]
      exact Device.settle_cur s.dev empty
    have some_left : e.content = .fill → 0 < e.replays := fun fill => by simp [QueueEntry.replays, fill]
    obtain ⟨ended, cleared, prevLine, prevRuns, processed⟩ := Device.performEntry_rtk t _ _ cur work some_left
    have lcn := Device.performEntry_touches t s.dev.settle.takeEntry .lcn (by decide)
    refine ⟨_, State.event_of service ?_, rfl, taken, ?_, ended, cleared, prevLine, ?_, ?_,
      (s.dev.settle.takeEntry_touches.comp (Device.performEntry_touches t _)).weaken rfl⟩
    · rw [Device.trackLine_eq terms, Device.takeNext_of_entry idle queue rfl]
    · exact Eq.trans lcn (Device.takeEntry_lcn queue)
    · rw [taken] at prevRuns
      exact prevRuns
    · rw [taken] at processed
      exact processed
  · obtain ⟨ended, cleared, prevLine, _, _⟩ := Device.performEntry_rtk t s.dev w empty work more
    refine ⟨_, State.event_of service ?_, rfl, ended, cleared, prevLine, (Device.performEntry_touches t s.dev).weaken rfl⟩
    rw [Device.trackLine_eq terms, Device.takeNext_of_busy _ work]
  · rw [Device.trackLine_eq terms, Device.takeNext_of_empty _ queue, Device.performEntry_of_none t idle]

end Sys2Proof.Machine
end

section
/-!
PROOF. Decided outcomes and their frames (O25), the wheels of a stamp (O26), and pack feeds (O30): each frame is written once as the numbers
that it spells.
-/

namespace Sys2Proof.Machine

/-! ### Sets of bits in a layout -/

theorem bitsOf_lt (l : List Bool) : bitsOf l < 2 ^ l.length := by
  induction l with
  | nil => exact Nat.one_pos
  | cons b l ih =>
    simp only [bitsOf, List.length_cons, Nat.pow_succ]
    split <;> omega

/-- A set of bits that its field holds is read whole. -/
theorem Shows.bits {bytes : List Byte} {fields : List (Nat × Nat × Nat)} (h : Shows bytes fields) {o n : Nat} {l : List Bool}
    (field : (o, n, bitsOf l) ∈ fields) (fits : l.length ≤ 8 * n) : fieldAt o n bytes = bitsOf l := by
  have small : bitsOf l < 256 ^ n := by
    rw [show 256 = 2 ^ 8 from rfl, ← Nat.pow_mul]
    exact (bitsOf_lt l).trans_le (Nat.pow_le_pow_right (by decide) fits)
  exact (h _ field).trans (Nat.mod_eq_of_lt small)

/-! ### The HIDE frame (O25) -/

/-- The numbers of the HIDE layout (R208). -/
def HideRecord.fields (slot : Nat) (r : HideRecord) : List (Nat × Nat) :=
  [(4, r.number.toNat), (1, slot), (1, r.disposition.code.toNat),
    (2, bitsOf [r.flags.exhausted, r.flags.edge, r.flags.interpolated, r.flags.truncated, r.flags.holeOverflow, r.flags.overrange,
      r.flags.noAnchor, r.flags.suspect]),
    (4, r.firstLine.toNat), (4, r.lastLine.toNat), (2, r.minCell), (2, r.maxCell), (6, r.born.toNat), (8, r.measured),
    (8, r.filled), (8, r.deducted), (8, r.counted), (2, r.smallHoles), (2, r.largeHoles), (4, r.steps), (1, r.unit.code.toNat),
    (1, r.resolution.code.toNat), (4, r.generation.toNat), (1, r.classIndex.getD 255),
    (1, r.assigned.elim 255 fun x => x.1.val), (6, r.assigned.elim 0 fun x => x.2.toNat),
    (4, r.anchor.elim 0 fun a => a.line.toNat), (4, r.anchor.elim 0 fun a => a.width), (2, r.anchor.elim 0 fun a => a.cell),
    (6, r.anchor.elim 0 fun a => a.pos.toNat), (4, r.audit), (4, r.uptime.toNat)]

theorem HideRecord.bytes_eq_spell (slot : Nat) (r : HideRecord) : r.bytes slot = spell (r.fields slot) := by
  have anchor : anchorBytes r.anchor = spell [(4, r.anchor.elim 0 fun a => a.line.toNat), (4, r.anchor.elim 0 fun a => a.width),
      (2, r.anchor.elim 0 fun a => a.cell), (6, r.anchor.elim 0 fun a => a.pos.toNat)] := by
    cases r.anchor <;> simp [anchorBytes, spell]
  unfold HideRecord.bytes HideRecord.fields
  rw [anchor]
  cases r.assigned with
  | none | some x =>
    simp only [spell, List.flatMap_cons, List.flatMap_nil, List.append_nil, bytesOf_one, Option.elim]
    simp only [List.append_assoc, List.cons_append, List.nil_append]
    simp only [BitVec.ofNat_toNat, BitVec.setWidth_eq]

theorem HideRecord.shows_bytes (slot : Nat) (r : HideRecord) : Shows (r.bytes slot) (placed 0 (r.fields slot)) :=
  (StandsAt.whole _).shows (r.bytes_eq_spell slot)

theorem HideRecord.bytes_length (slot : Nat) (r : HideRecord) : (r.bytes slot).length = 104 := by
  rw [r.bytes_eq_spell, spell_length]
  simp [HideRecord.fields]

theorem HideRecord.flagField (slot : Nat) (r : HideRecord) : fieldAt 6 2 (r.bytes slot) =
    bitsOf [r.flags.exhausted, r.flags.edge, r.flags.interpolated, r.flags.truncated, r.flags.holeOverflow, r.flags.overrange,
      r.flags.noAnchor, r.flags.suspect] :=
  (r.shows_bytes slot).bits (by simp [placed, HideRecord.fields]) (by simp)

/-! ### A decided outcome (O25) -/

theorem Device.record_inside {d : Device} {i : Nat} {r : HideRecord} (held : d.record i = some r) : i < d.hev.store.length := by
  by_contra outside
  rw [Device.record, List.getD_eq_default _ _ (Nat.not_lt.1 outside)] at held
  exact nomatch held

theorem Device.record_setRecord {i : Nat} {r : Option HideRecord} {d : Device} (inside : i < d.hev.store.length) :
    (d.setRecord i r).record i = r := by
  simp [Device.record, inside]

section
variable {d : Device} {i : Nat} {r : HideRecord} {outcome : Disposition}

theorem Device.dispose_of_held (held : d.record i = some r) :
    d.dispose i outcome = (d.setRecord i (some { r with disposition := outcome })).askHidePlace i := by
  unfold Device.dispose
  rw [held]

theorem Device.dispose_of_room (held : d.record i = some r) (decided : outcome ≠ .pending) (room : d.reportRoom = true) :
    d.dispose i outcome = (d.setRecord i (some { r with disposition := outcome })).reportHide i { r with disposition := outcome } := by
  rw [Device.dispose_of_held held, Device.askHidePlace, Device.record_setRecord (Device.record_inside held)]
  exact if_pos (by simp [decided, show (d.setRecord i _).reportRoom = true from room])

theorem Device.dispose_of_noRoom (held : d.record i = some r) (room : d.reportRoom = false) :
    d.dispose i outcome = d.setRecord i (some { r with disposition := outcome }) := by
  rw [Device.dispose_of_held held, Device.askHidePlace, Device.record_setRecord (Device.record_inside held)]
  exact if_neg (by simp [show (d.setRecord i _).reportRoom = false from room])

end

/-- What a record reported from its slot leaves of the three blocks it changes (R90, R92). -/
theorem Device.reportHide_parts (i : Nat) (x : Option HideRecord) (r : HideRecord) (d : Device) :
    ((d.setRecord i x).reportHide i r).hev = { d.hev with store := d.hev.store.set i none } ∧
      ((d.setRecord i x).reportHide i r).rtk = { d.rtk with retryPending := true } ∧
      ((d.setRecord i x).reportHide i r).lnk = (d.placeReport (hideFrame i r)).lnk := by
  have stamped : d.setRecord i x = d.withStamps { d.hev with store := d.hev.store.set i x } d.sth := rfl
  have placed := Device.withStamps_placeReport (d := d) (h := { d.hev with store := d.hev.store.set i x }) (s := d.sth) (hideFrame i r)
  have hev := Device.placeReport_touches (hideFrame i r) (d.setRecord i x) .hev (by decide)
  have rtk := Device.placeReport_touches (hideFrame i r) (d.setRecord i x) .rtk (by decide)
  refine ⟨?_, ?_, ?_⟩
  · show { ((d.setRecord i x).placeReport (hideFrame i r)).hev with
      store := ((d.setRecord i x).placeReport (hideFrame i r)).hev.store.set i none } = _
    rw [show _ = _ from hev, Device.setRecord_hev, List.set_set]
  · show { ((d.setRecord i x).placeReport (hideFrame i r)).rtk with retryPending := true } = _
    rw [show _ = _ from rtk, Device.setRecord_rtk]
  · show ((d.setRecord i x).placeReport (hideFrame i r)).lnk = _
    rw [stamped, ← placed]
    rfl

/-- Settles O25: an outcome handed to its record, the entry that leaves the queue, and the HIDE frame by its numbers. -/
theorem decidedOutcomeLeavesQueueAndReportsRecord : Obligations.DecidedOutcomeLeavesQueueAndReportsRecord := by
  refine ⟨fun d i r outcome held decided => ⟨fun room => ?_, fun noRoom => Device.dispose_of_noRoom held noRoom⟩,
    ⟨fun n e outcome d four => ?_, fun n atTick d => ⟨fun e rest front idle line => Device.startSetting_of_idle atTick front idle line,
      fun no => ?_⟩⟩, fun i r => ?_⟩
  · dsimp only
    have touched := Device.dispose_touches i outcome d
    rw [Device.dispose_of_room held decided room] at touched ⊢
    obtain ⟨hev, rtk, lnk⟩ := Device.reportHide_parts i (some { r with disposition := outcome }) { r with disposition := outcome } d
    exact ⟨hev, rtk, lnk, touched⟩
  · have touched := Device.decideEntry_touches n e outcome d
    rw [Device.decideEntry_eq] at touched ⊢
    refine ⟨?_, rfl, rfl, touched⟩
    rw [Device.setHead_sth, Device.dispose_sth]
    rfl
  · rcases no with empty | busy | faulted
    · unfold Device.startSetting
      dsimp only
      rw [empty]
    · exact Device.startSetting_of_busy atTick (.inl busy)
    · exact Device.startSetting_of_busy atTick (.inr faulted)
  · have shown := r.shows_bytes i
    have flags := r.flagField i
    refine ⟨rfl, rfl, rfl, r.bytes_length i, shown.mono ?_, ?_, fun x asked => ?_,
      fun n fire assigned => shown.mono (by simp [placed, HideRecord.fields, assigned]),
      fun assigned => shown.mono (by simp [placed, HideRecord.fields, assigned]),
      fun a anchor => shown.mono (by simp [placed, HideRecord.fields, anchor]),
      fun anchor => shown.mono (by simp [placed, HideRecord.fields, anchor])⟩
    · simp only [placed, HideRecord.fields, List.cons_subset, List.nil_subset, List.mem_cons, Nat.zero_add, Nat.reduceAdd, true_or, or_true, and_true]
    · show fieldAt 6 2 (r.bytes i) < 256
      rw [flags]
      exact (bitsOf_lt _).trans_le (by simp)
    · show (fieldAt 6 2 (r.bytes i)).testBit x.1 = x.2
      rw [flags, testBit_bitsOf]
      simp only [List.mem_cons, List.not_mem_nil, or_false] at asked
      rcases asked with rfl | rfl | rfl | rfl | rfl | rfl | rfl | rfl <;> simp [HideFlags.suspect]

/-! ### The wheels (O26) -/

/-- What a footage wheel at a decimal place shows of a whole number: blank to the left of its first digit (R119). -/
def shownDigit (whole place : Nat) : Nat := if 1 < place ∧ whole < place then 10 else whole / place % 10

theorem shownDigit_le (whole place : Nat) : shownDigit whole place ≤ 10 := by
  unfold shownDigit
  split <;> omega

theorem shownDigit_left (whole : Nat) {place : Nat} (left : 1 < place) :
    (if whole / place = 0 then codeBlank else whole / place % 10) = shownDigit whole place :=
  if_congr ((Nat.div_eq_zero_iff_lt (by omega)).trans (by simp [left])) rfl rfl

theorem shownDigit_right (whole : Nat) : shownDigit whole 1 = whole % 10 := by simp [shownDigit]

/-- The integer wheels by their decimal places. -/
theorem integerWheels_eq (n : Nat) :
    integerWheels 2 n = [shownDigit n 10, shownDigit n 1] ∧
      integerWheels 3 n = [shownDigit n 100, shownDigit n 10, shownDigit n 1] ∧
      integerWheels 4 n = [shownDigit n 1000, shownDigit n 100, shownDigit n 10, shownDigit n 1] ∧
      integerWheels 5 n = [shownDigit n 10000, shownDigit n 1000, shownDigit n 100, shownDigit n 10, shownDigit n 1] := by
  simp only [integerWheels, leftWheels, Nat.div_div_eq_div_mul, List.nil_append, List.cons_append,
    shownDigit_left n (show 1 < 10 by decide), shownDigit_left n (show 1 < 10 * 10 by decide),
    shownDigit_left n (show 1 < 10 * 10 * 10 by decide), shownDigit_left n (show 1 < 10 * 10 * 10 * 10 by decide),
    shownDigit_right]
  simp

/-- The digit that a wheel code stands for: a blank counts as 0. -/
def wheelDigit (c : BitVec 4) : Nat := if c = 10 then 0 else c.toNat

theorem toNat_code {v : Nat} (fits : v ≤ 15) : (BitVec.ofNat 4 v).toNat = v := by
  rw [BitVec.toNat_ofNat]
  exact Nat.mod_eq_of_lt (Nat.lt_succ_of_le fits)

theorem toNat_shownDigit (whole place : Nat) : (BitVec.ofNat 4 (shownDigit whole place)).toNat = shownDigit whole place :=
  toNat_code ((shownDigit_le whole place).trans (by decide))

theorem wheelDigit_shownDigit (whole place : Nat) : wheelDigit (BitVec.ofNat 4 (shownDigit whole place)) = whole / place % 10 := by
  have blank : BitVec.ofNat 4 (shownDigit whole place) = 10 ↔ shownDigit whole place = 10 :=
    ⟨fun same => by rw [← toNat_shownDigit, same]; rfl, fun same => by rw [same]; rfl⟩
  unfold wheelDigit
  rw [if_congr blank rfl rfl, toNat_shownDigit]
  unfold shownDigit
  by_cases short : 1 < place ∧ whole < place
  · rw [if_pos short, if_pos rfl, Nat.div_eq_of_lt short.2]
  · rw [if_neg short, if_neg (by omega)]

theorem wheelTarget_of_fits {steps : Nat} {r : Resolution} (face : Nat) (fits : steps ≤ r.capacity) :
    wheelTarget face steps r false = wheelsOf face (footageWheels r steps) := by
  unfold wheelTarget
  rw [if_neg (by simpa using fits)]

/-- The 4 bits above the lowest ones are those of the front part. -/
theorem extractLsb'_append_code {n k : Nat} {x : BitVec n} {y c : BitVec 4} (above : x.extractLsb' k 4 = c) :
    (x ++ y).extractLsb' (k + 4) 4 = c := by
  rw [← above]
  refine BitVec.eq_of_toNat_eq ?_
  rw [BitVec.extractLsb'_toNat, BitVec.extractLsb'_toNat, toNat_append_code, Nat.add_comm k 4, Nat.shiftRight_add]
  congr 2
  have := y.isLt
  rw [Nat.shiftRight_eq_div_pow]
  omega

theorem extractLsb'_append_low {n : Nat} (x : BitVec n) (y : BitVec 4) : (x ++ y).extractLsb' 0 4 = y := by
  refine BitVec.eq_of_toNat_eq ?_
  have := y.isLt
  rw [BitVec.extractLsb'_toNat, toNat_append_code, Nat.shiftRight_zero]
  omega

theorem wheelsOf_whole (face steps : Nat) : wheelsOf face (footageWheels .whole steps) =
    ⟨BitVec.ofNat 4 face, BitVec.ofNat 4 (shownDigit steps 10000), BitVec.ofNat 4 (shownDigit steps 1000),
      BitVec.ofNat 4 (shownDigit steps 100), BitVec.ofNat 4 (shownDigit steps 10), BitVec.ofNat 4 (shownDigit steps 1)⟩ := by
  rw [footageWheels, (integerWheels_eq steps).2.2.2]
  rfl

theorem wheelsOf_quarter (face steps : Nat) : wheelsOf face (footageWheels .quarter steps) =
    ⟨BitVec.ofNat 4 face, BitVec.ofNat 4 (shownDigit (steps / 4) 1000), BitVec.ofNat 4 (shownDigit (steps / 4) 100),
      BitVec.ofNat 4 (shownDigit (steps / 4) 10), BitVec.ofNat 4 (shownDigit (steps / 4) 1),
      BitVec.ofNat 4 (quarterCode (steps % 4))⟩ := by
  rw [footageWheels, (integerWheels_eq (steps / 4)).2.2.1]
  rfl

theorem wheelsOf_tenth (face steps : Nat) : wheelsOf face (footageWheels .tenth steps) =
    ⟨BitVec.ofNat 4 face, BitVec.ofNat 4 (shownDigit (steps / 10) 100), BitVec.ofNat 4 (shownDigit (steps / 10) 10),
      BitVec.ofNat 4 (shownDigit (steps / 10) 1), 15, BitVec.ofNat 4 (steps % 10)⟩ := by
  rw [footageWheels, (integerWheels_eq (steps / 10)).2.1]
  rfl

theorem wheelsOf_hundredth (face steps : Nat) : wheelsOf face (footageWheels .hundredth steps) =
    ⟨BitVec.ofNat 4 face, BitVec.ofNat 4 (shownDigit (steps / 100) 10), BitVec.ofNat 4 (shownDigit (steps / 100) 1), 15,
      BitVec.ofNat 4 (steps % 100 / 10), BitVec.ofNat 4 (steps % 10)⟩ := by
  rw [footageWheels, (integerWheels_eq (steps / 100)).1]
  rfl

theorem quarterCode_of_lt {q : Nat} (quarters : q < 4) : quarterCode q ≤ 14 ∧ quarterCode q - 11 = q := by
  unfold quarterCode codeBlank
  split <;> omega

/-- Settles O26: the wheels of each resolution by their decimal places, the stars, and the fields of the shift word. -/
theorem wheelsAndShiftWordCarryTheStamp : Obligations.WheelsAndShiftWordCarryTheStamp := by
  refine ⟨fun face steps r small fits => ?_, fun face steps r star stars => ?_, fun e => ?_⟩
  · dsimp only
    rw [wheelTarget_of_fits face fits]
    have shows := toNat_shownDigit
    cases r with
    | whole =>
      have fits : steps ≤ 99999 := fits
      rw [wheelsOf_whole]
      refine ⟨toNat_code small, ?_, nofun, nofun, shows _ _, shows _ _, shows _ _, shows _ _, shows _ _⟩
      show steps = 10000 * wheelDigit _ + 1000 * wheelDigit _ + 100 * wheelDigit _ + 10 * wheelDigit _ + wheelDigit _
      simp only [wheelDigit_shownDigit]
      omega
    | quarter =>
      have fits : steps ≤ 39999 := fits
      obtain ⟨code, value⟩ := quarterCode_of_lt (Nat.mod_lt steps (show 0 < 4 by decide))
      have last := toNat_code (code.trans (by decide))
      rw [wheelsOf_quarter]
      refine ⟨toNat_code small, ?_, nofun, nofun, shows _ _, shows _ _, shows _ _, shows _ _, last⟩
      show steps = 4 * (1000 * wheelDigit _ + 100 * wheelDigit _ + 10 * wheelDigit _ + wheelDigit _) + _
      simp only [wheelDigit_shownDigit, last, value]
      omega
    | tenth =>
      have fits : steps ≤ 9999 := fits
      have last : (BitVec.ofNat 4 (steps % 10)).toNat = steps % 10 := toNat_code (by omega)
      rw [wheelsOf_tenth]
      refine ⟨toNat_code small, ?_, fun _ => rfl, nofun, shows _ _, shows _ _, shows _ _, last⟩
      show steps = 10 * (100 * wheelDigit _ + 10 * wheelDigit _ + wheelDigit _) + _
      simp only [wheelDigit_shownDigit, last]
      omega
    | hundredth =>
      have fits : steps ≤ 9999 := fits
      have tenths : (BitVec.ofNat 4 (steps % 100 / 10)).toNat = steps % 100 / 10 := toNat_code (by omega)
      have last : (BitVec.ofNat 4 (steps % 10)).toNat = steps % 10 := toNat_code (by omega)
      rw [wheelsOf_hundredth]
      refine ⟨toNat_code small, ?_, nofun, fun _ => rfl, shows _ _, shows _ _, tenths.trans (by omega), last⟩
      show steps = 100 * (10 * wheelDigit _ + wheelDigit _) + 10 * _ + _
      simp only [wheelDigit_shownDigit, tenths, last]
      omega
  · unfold wheelTarget
    rw [if_pos (by simpa using stars)]
    rfl
  · have up {n k : Nat} {x : BitVec n} {y c : BitVec 4} (above : x.extractLsb' k 4 = c) : (x ++ y).extractLsb' (k + 4) 4 = c :=
      extractLsb'_append_code above
    have low {n : Nat} (x : BitVec n) (y : BitVec 4) : (x ++ y).extractLsb' 0 4 = y := extractLsb'_append_low x y
    refine ⟨up (up (up (up (up (up (up BitVec.extractLsb'_eq_self)))))), up (up (up (up (up (up (low _ _)))))),
      up (up (up (up (up (low _ _))))), up (up (up (up (low _ _)))), up (up (up (low _ _))), up (up (low _ _)), up (low _ _),
      (low _ _).trans ?_⟩
    exact BitVec.setWidth_eq_extractLsb' (by decide)

/-! ### The PACK frame and pack feeds (O30) -/

/-- The numbers of the PACK layout (R208). -/
def packFields (n : Fin 4) (c : ClosedPack) : List (Nat × Nat) :=
  [(4, c.pack.number.toNat), (4, c.pack.generation.toNat), (2, c.pack.hides), (1, n.val),
    (1, bitsOf [c.flags.short, c.flags.overfull, c.flags.policyChange, c.pack.overrange]), (1, c.pack.target),
    (1, c.pack.unit.code.toNat), (1, c.pack.resolution.code.toNat), (8, c.pack.steps), (8, c.pack.area), (4, c.uptime.toNat)]

theorem packFrame_eq_spell (n : Fin 4) (c : ClosedPack) : (packFrame n c).payload = spell (packFields n c) := by
  simp [packFrame, packFields, ClosedPack.flagByte, spell, bytesOf_one]

theorem packFrame_shows (n : Fin 4) (c : ClosedPack) : Shows (packFrame n c).payload (placed 0 (packFields n c)) :=
  (StandsAt.whole _).shows (packFrame_eq_spell n c)

theorem packFrame_flagField (n : Fin 4) (c : ClosedPack) : fieldAt 11 1 (packFrame n c).payload =
    bitsOf [c.flags.short, c.flags.overfull, c.flags.policyChange, c.pack.overrange] :=
  (packFrame_shows n c).bits (by simp [placed, packFields]) (by simp)

/-! ### What the link's operations read (O30, O35, O36) -/

/-- Two devices with the same link and the same decoder. -/
structure Device.SameLink (d e : Device) : Prop where
  lnk : e.lnk = d.lnk
  dec : e.dec = d.dec

section
variable {d e : Device}

theorem Device.SameLink.offerReplyPlace (h : d.SameLink e) : d.offerReplyPlace.SameLink e.offerReplyPlace := by
  unfold Device.offerReplyPlace
  rw [h.dec]
  split
  · exact h
  · exact ⟨by simp only [h.lnk], by simp only [h.dec]⟩

theorem Device.SameLink.sendReplyPart (h : d.SameLink e) (x : ReplyEntry) (rest : List ReplyEntry) :
    (d.sendReplyPart x rest).SameLink (e.sendReplyPart x rest) := by
  unfold Device.sendReplyPart
  dsimp only
  rw [h.lnk]
  split
  · exact Device.SameLink.offerReplyPlace ⟨rfl, h.dec⟩
  · exact ⟨rfl, h.dec⟩

theorem Device.SameLink.sendNext (h : d.SameLink e) : d.sendNext.SameLink e.sendNext := by
  unfold Device.sendNext
  rw [h.lnk]
  split
  · exact h.sendReplyPart _ _
  · split
    · exact ⟨rfl, h.dec⟩
    · split
      · exact ⟨rfl, h.dec⟩
      · exact ⟨rfl, h.dec⟩

theorem Device.SameLink.wakeTx (h : d.SameLink e) : d.wakeTx.SameLink e.wakeTx := by
  unfold Device.wakeTx
  rw [h.lnk]
  split
  · exact h.sendNext
  · exact h

theorem Device.SameLink.placeReport (h : d.SameLink e) (f : Frame) : (d.placeReport f).SameLink (e.placeReport f) := by
  unfold Device.placeReport Device.reportRoom
  rw [h.lnk]
  split
  · exact Device.SameLink.wakeTx ⟨rfl, h.dec⟩
  · exact h

end

/-! ### Pack feeds (O30) -/

theorem Device.slot_setSlot_ne {n m : Fin 4} {p : PackSlot} {d : Device} (other : m ≠ n) : (d.setSlot n p).slot m = d.slot m := by
  have apart : n.val ≠ m.val := fun same => other (Fin.ext same.symm)
  simp [Device.slot, List.getD, apart]

/-- A slot with its pack fed, before the test of its target (R144). -/
def Device.fed (n : Fin 4) (p : Pack) (next : Word32) (d : Device) : Device :=
  let e := d.setSlot n { d.slot n with acc := some p }
  { e with pku := { e.pku with nextPack := next } }

section
variable {n : Fin 4} {p : Pack} {next : Word32} {d : Device} (four : d.pku.slots.length = 4)
include four

theorem Device.fed_slots : (d.fed n p next).pku.slots.length = 4 := by
  rw [← four]
  exact List.length_set

theorem Device.fed_slot : (d.fed n p next).slot n = ⟨some p, (d.slot n).buf⟩ := Device.slot_setSlot (d := d) four

theorem Device.closeAtTarget_of_open (stays : p.hides < p.target ∨ (d.slot n).buf ≠ none) :
    (d.fed n p next).closeAtTarget n = d.fed n p next := by
  have slot := Device.fed_slot (p := p) (next := next) (n := n) four
  unfold Device.closeAtTarget
  rw [slot]
  by_cases short : p.hides < p.target
  · exact if_pos short
  · exact (if_neg short).trans (Device.closePack_none _ (.inr (by rw [slot]; exact stays.resolve_left short)))

theorem Device.closeAtTarget_of_full (full : p.target ≤ p.hides) (empty : (d.slot n).buf = none) :
    (d.fed n p next).closeAtTarget n =
      if d.reportRoom then
        ((d.fed n p next).setSlot n ⟨none, none⟩).placeReport (packFrame n ⟨p, ⟨false, false, false⟩, d.bpu.uptime⟩)
      else (d.fed n p next).setSlot n ⟨none, some ⟨p, ⟨false, false, false⟩, d.bpu.uptime⟩⟩ := by
  have slot := Device.fed_slot (p := p) (next := next) (n := n) four
  unfold Device.closeAtTarget
  rw [slot]
  refine (if_neg (Nat.not_lt.2 full)).trans ?_
  exact Device.closePack_eq .none (Device.fed_slots four) (by rw [slot]) (by rw [slot]; exact empty)

/-- What a feed leaves: the other slots, the next pack number, and the slot by its target, its buffer and the report room (R144 to R147). -/
theorem Device.closeAtTarget_fed :
    let t := (d.fed n p next).closeAtTarget n
    let closed : ClosedPack := ⟨p, ⟨false, false, false⟩, d.bpu.uptime⟩
    (∀ m, m ≠ n → t.slot m = d.slot m) ∧ t.pku.nextPack = next ∧
      (p.hides < p.target ∨ (d.slot n).buf ≠ none → t.slot n = ⟨some p, (d.slot n).buf⟩ ∧ t.lnk = d.lnk ∧ t.dec = d.dec) ∧
      (p.target ≤ p.hides → (d.slot n).buf = none → d.reportRoom = true →
        t.slot n = ⟨none, none⟩ ∧ t.lnk = (d.placeReport (packFrame n closed)).lnk) ∧
      (p.target ≤ p.hides → (d.slot n).buf = none → d.reportRoom = false →
        t.slot n = ⟨none, some closed⟩ ∧ t.lnk = d.lnk ∧ t.dec = d.dec) := by
  have sized := Device.fed_slots (p := p) (next := next) (n := n) four
  have slot := Device.fed_slot (p := p) (next := next) (n := n) four
  have others (m : Fin 4) (other : m ≠ n) : (d.fed n p next).slot m = d.slot m := Device.slot_setSlot_ne (d := d) other
  by_cases stays : p.hides < p.target ∨ (d.slot n).buf ≠ none
  · dsimp only
    rw [Device.closeAtTarget_of_open four stays]
    have no (full : p.target ≤ p.hides) (empty : (d.slot n).buf = none) : False :=
      stays.elim (Nat.not_lt.2 full) fun held => held empty
    exact ⟨others, rfl, fun _ => ⟨slot, rfl, rfl⟩, fun full empty => (no full empty).elim, fun full empty => (no full empty).elim⟩
  · obtain ⟨full, empty⟩ := not_or.1 stays
    dsimp only
    rw [Device.closeAtTarget_of_full four (Nat.not_lt.1 full) (not_not.1 empty)]
    by_cases room : d.reportRoom = true
    · rw [if_pos room]
      have pku := Device.placeReport_touches (packFrame n ⟨p, ⟨false, false, false⟩, d.bpu.uptime⟩)
        ((d.fed n p next).setSlot n ⟨none, none⟩) .pku (by decide)
      have same : d.SameLink ((d.fed n p next).setSlot n ⟨none, none⟩) := ⟨rfl, rfl⟩
      have slots (m : Fin 4) := congrArg (fun k : Pku => k.slots.getD m ⟨none, none⟩) pku
      refine ⟨fun m other => (slots m).trans ((Device.slot_setSlot_ne other).trans (others m other)), congrArg Pku.nextPack pku,
        fun open' => absurd open' stays, fun _ _ _ => ⟨(slots n).trans (Device.slot_setSlot sized), (same.placeReport _).lnk⟩,
        fun _ _ no => absurd room (by simp [no])⟩
    · rw [if_neg room]
      exact ⟨fun m other => (Device.slot_setSlot_ne other).trans (others m other), rfl, fun open' => absurd open' stays,
        fun _ _ yes => absurd yes room, fun _ _ _ => ⟨Device.slot_setSlot sized, rfl, rfl⟩⟩

end

theorem Device.feedPack_of_empty {n : Fin 4} {f : PackFeed} {d : Device} (empty : (d.slot n).acc = none) :
    d.feedPack n f = (d.fed n (f.openPack d.pku.nextPack) (d.pku.nextPack + 1)).closeAtTarget n := by
  unfold Device.feedPack
  rw [empty]
  rfl

theorem Device.feedPack_of_filling {n : Fin 4} {f : PackFeed} {d : Device} {p : Pack} (filling : (d.slot n).acc = some p) :
    d.feedPack n f = (d.fed n (f.addTo p) d.pku.nextPack).closeAtTarget n := by
  unfold Device.feedPack
  rw [filling]
  rfl

/-- Settles O30: the PACK frame by its numbers, and the slot that a feed leaves. -/
theorem packFeedAddsAndCloses : Obligations.PackFeedAddsAndCloses := by
  refine ⟨fun n c => ?_, fun n f d four => ?_⟩
  · have shown := packFrame_shows n c
    have flags := packFrame_flagField n c
    refine ⟨rfl, rfl, ?_, shown.mono (by simp [placed, packFields]), ?_, fun x asked => ?_⟩
    · rw [packFrame_eq_spell, spell_length]
      simp [packFields]
    · rw [flags]
      exact (bitsOf_lt _).trans_le (by simp)
    · rw [flags, testBit_bitsOf]
      simp only [List.mem_cons, List.not_mem_nil, or_false] at asked
      rcases asked with rfl | rfl | rfl | rfl <;> simp
  · have touched := Device.feedPack_touches n f d
    dsimp only
    cases acc : (d.slot n).acc with
    | none =>
      rw [Device.feedPack_of_empty acc] at touched ⊢
      rw [if_pos rfl]
      exact ⟨touched, Device.closeAtTarget_fed four⟩
    | some p =>
      rw [Device.feedPack_of_filling acc] at touched ⊢
      rw [if_neg (Option.some_ne_none p)]
      exact ⟨touched, Device.closeAtTarget_fed four⟩

end Sys2Proof.Machine
end

section
/-!
PROOF. The heads (O27 to O29): the readback judged, the crossing of a fire position, and the ends of the strike and recover times.
-/

namespace Sys2Proof.Machine

/-! ### The readback (O27) -/

theorem readbackMatches_iff (w : Word32) (e : StampEntry) : readbackMatches w e = true ↔
    w.extractLsb' 8 24 = e.wheels.word ∧ w.extractLsb' 4 4 = e.hide.extractLsb' 0 4 ∧ w.getLsbD 1 = true ∧ w.getLsbD 0 = false := by
  have check : e.check = e.hide.extractLsb' 0 4 := BitVec.setWidth_eq_extractLsb' (by decide)
  have marker : w.extractLsb' 0 2 = 2#2 ↔ w.getLsbD 1 = true ∧ w.getLsbD 0 = false := by
    refine ⟨fun same => ⟨?_, ?_⟩, fun ⟨one, zero⟩ => BitVec.eq_of_getLsbD_eq fun i inside => ?_⟩
    · simpa using congrArg (fun x => x.getLsbD 1) same
    · simpa using congrArg (fun x => x.getLsbD 0) same
    · match i, inside with
      | 0, _ => simpa using zero
      | 1, _ => simpa using one
  rw [readbackMatches, check]
  simp only [Bool.and_eq_true, beq_iff_eq, marker, and_assoc]

section
variable {n : Fin 4} {w : Word32} {d : Device} {e : StampEntry} {rest : List StampEntry}

theorem Device.setTimeExpiry_of_idle (no : (d.head n).state ≠ .setting ∨ (d.head n).timer.due = false) : d.setTimeExpiry n w = d := by
  unfold Device.setTimeExpiry
  dsimp only
  split
  · exact if_neg fun yes => by rcases no with state | timer <;> simp_all
  · rfl

theorem Device.setTimeExpiry_of_due (setting : (d.head n).state = .setting) (due : (d.head n).timer.due = true)
    (front : (d.head n).queue = e :: rest) : d.setTimeExpiry n w = (d.takeReadback n w).verify n e w := by
  unfold Device.setTimeExpiry
  dsimp only
  rw [front]
  exact if_pos (by simp [setting, due])

theorem Device.takeReadback_headEntry : (d.takeReadback n w).headEntry n = d.headEntry n := by
  unfold Device.takeReadback
  dsimp only
  split <;> rfl

end

/-- Settles O27: the readback is kept, and the front entry judged by it. -/
theorem setTimeExpiryJudgesTheReadback : Obligations.SetTimeExpiryJudgesTheReadback := by
  intro n w s service four
  refine ⟨fun no => State.event_of service (Device.setTimeExpiry_of_idle no), fun e rest setting due front => ?_⟩
  have head : (s.dev.takeReadback n w).head n = { s.dev.head n with lastReadback := some w } :=
    Device.takeReadback_head w (four.symm ▸ n.isLt)
  have taken := Device.setTimeExpiry_of_due (w := w) setting due front
  have isMatch := readbackMatches_iff w e
  have judged (u : Device) (verdict : (s.dev.takeReadback n w).verify n e w = u) :
      exec (.setTimeExpiry n w) s = .next ⟨u.askEventPlace, s.pending⟩ := State.event_of service (taken.trans verdict)
  have stalled : (s.dev.takeReadback n w).stall n e = Device.decideEntry n e .verifyFail
      (((s.dev.takeReadback n w).setHead n { s.dev.head n with
        lastReadback := some w, state := .stalled, timer := none, retryUsed := false }).raise (.headStall n)) := by
    unfold Device.stall
    rw [head]
  refine ⟨fun fails => judged _ ?_, fun free same => judged _ ?_, fun free differs fresh => judged _ ?_⟩
  · unfold Device.verify
    rw [head]
    rcases fails with jam | ⟨differs, used⟩
    · exact (if_pos jam).trans stalled
    · by_cases jam : readbackJam w = true
      · exact (if_pos jam).trans stalled
      · exact (if_neg jam).trans ((if_neg (mt isMatch.1 differs)).trans ((if_pos used).trans stalled))
  · unfold Device.verify
    rw [head]
    exact (if_neg (Bool.eq_false_iff.1 free)).trans (if_pos (isMatch.2 same))
  · unfold Device.verify
    rw [head, Device.takeReadback_headEntry]
    exact (if_neg (Bool.eq_false_iff.1 free)).trans ((if_neg (mt isMatch.1 differs)).trans (if_neg (by simp [fresh])))

/-! ### Crossings (O28) -/

/-- The belt and the heads as a FORWARD pulse presents its position: the count of the divider touches neither (R8, R127). -/
theorem Device.pulse_forward_presents (d : Device) :
    ∃ e : Device, d.pulse .forward = e.presentPosition .forward ∧ e.bpu.position = d.bpu.position + 1 ∧ e.sth = d.sth := by
  let moved : Device := { d with bpu := d.bpu.forward }
  refine ⟨if d.bpu.newBelt && d.lct.lineState == .running then moved.countDivider else moved, rfl, ?_, ?_⟩
  · split
    · exact moved.countDivider_track.1
    · rfl
  · split
    · exact moved.countDivider_touches .sth (by decide)
    · rfl

theorem Device.crossedEntry_eq_none (n : Fin 4) (d : Device) :
    d.crossedEntry n = none ↔ ∀ e ∈ (d.head n).queue, e.fire ≠ d.bpu.position := by
  simp only [Device.crossedEntry, List.find?_eq_none, beq_iff_eq]

/-- The heads whose entries a position crosses. -/
def Device.crossedHeads (d : Device) : List (Fin 4) := headNumbers.filter fun n => (d.crossedEntry n).isSome

theorem Device.presentPosition_of_none {d : Device} (none : d.crossedHeads = []) : d.presentPosition .forward = d := by
  show (match d.crossedHeads with | [] => d | crossed => d.eachHead crossed Device.cross) = d
  rw [none]

theorem Device.presentPosition_of_some {d : Device} (some : d.crossedHeads ≠ []) :
    d.presentPosition .forward = d.eachHead d.crossedHeads Device.cross := by
  show (match d.crossedHeads with | [] => d | crossed => d.eachHead crossed Device.cross) = _
  split
  · exact absurd (by assumption) some
  · rfl

theorem Head.frontAt_iff (h : Head) (fire : Position) : h.frontAt fire = true ↔ ∃ f rest, h.queue = f :: rest ∧ f.fire = fire := by
  unfold Head.frontAt
  cases h.queue with
  | nil => simp
  | cons f rest => simp

section
variable {n : Fin 4} {d : Device} {e : StampEntry} (crossed : d.crossedEntry n = some e)
include crossed

/-- A crossing by the state of the head (R127). -/
theorem Device.cross_eq : d.cross n = match (d.head n).state with
    | .stalled => d.decideEntry n e .missedStalled
    | .ready => if (d.head n).frontAt e.fire then d.strike n else d.missLate n e false
    | .striking => if (d.head n).frontAt e.fire then d else d.missLate n e false
    | .disabled | .idle | .setting | .recovering => d.missLate n e ((d.head n).frontAt e.fire) := by
  unfold Device.cross
  rw [crossed]
  rfl

omit crossed in
theorem Device.missLate_of_other {front : Bool} (other : (d.head n).state ≠ .setting ∨ front = false) :
    d.missLate n e front = (d.decideEntry n e .missedLate).startSetting n false := by
  unfold Device.missLate
  dsimp only
  rw [if_neg fun yes => by rcases other with state | behind <;> simp_all]

/-- The crossed entry of a head that cannot strike it is MISSED_LATE (R131). -/
theorem Device.cross_missLate (free : (d.head n).state ≠ .stalled)
    (late : (d.head n).state = .idle ∨ (d.head n).state = .recovering ∨ (d.head n).state = .disabled ∨
      (d.head n).frontAt e.fire = false) :
    d.cross n = (d.decideEntry n e .missedLate).startSetting n false := by
  rw [Device.cross_eq crossed]
  cases state : (d.head n).state with
  | stalled => exact absurd state free
  | ready | striking =>
    have behind : (d.head n).frontAt e.fire = false := by simpa [state] using late
    dsimp only
    rw [behind]
    exact Device.missLate_of_other (.inr rfl)
  | setting =>
    have behind : (d.head n).frontAt e.fire = false := by simpa [state] using late
    exact Device.missLate_of_other (.inr behind)
  | idle | recovering | disabled => exact Device.missLate_of_other (.inl (by rw [state]; exact HeadState.noConfusion))

end

/-- Settles O28: the heads that a pulse crosses, and each by its state. -/
theorem crossingStrikesOrMisses : Obligations.CrossingStrikesOrMisses := by
  refine ⟨fun d => rfl, Device.pulse_forward_presents, Device.crossedEntry_eq_none,
    fun d => ⟨Device.presentPosition_of_none, fun some => ⟨d.headOrder d.crossedHeads, sortWith_perm _,
      Device.presentPosition_of_some some⟩⟩, fun n d e four crossed => ?_⟩
  have found := List.find?_some crossed
  refine ⟨List.mem_of_find?_eq_some crossed, beq_iff_eq.1 found, fun ready front => ?_, fun striking front => ?_, fun stalled => ?_,
    fun setting front => ?_, fun free late => ?_⟩
  · rw [Device.cross_eq crossed, ready]
    exact if_pos ((Head.frontAt_iff _ _).2 front)
  · rw [Device.cross_eq crossed, striking]
    exact if_pos ((Head.frontAt_iff _ _).2 front)
  · rw [Device.cross_eq crossed, stalled]
  · rw [Device.cross_eq crossed, setting]
    dsimp only
    rw [(Head.frontAt_iff _ _).2 front]
    unfold Device.missLate
    dsimp only
    rw [if_pos (by simp [setting])]
  · refine Device.cross_missLate crossed free ?_
    rcases late with idle | recovering | disabled | behind
    · exact .inl idle
    · exact .inr (.inl recovering)
    · exact .inr (.inr (.inl disabled))
    · exact .inr (.inr (.inr (Bool.eq_false_iff.2 (mt (Head.frontAt_iff _ _).1 behind))))

/-! ### The ends of the strike and recover times (O29) -/

section
variable {n : Fin 4} {d : Device} {e : StampEntry} {rest : List StampEntry}

theorem Device.strikeTimeExpiry_of_idle (no : (d.head n).state ≠ .striking ∨ (d.head n).timer.due = false) :
    d.strikeTimeExpiry n = d := by
  unfold Device.strikeTimeExpiry
  dsimp only
  split
  · exact if_neg fun yes => by rcases no with state | timer <;> simp_all
  · rfl

theorem Device.strikeTimeExpiry_of_due (striking : (d.head n).state = .striking) (due : (d.head n).timer.due = true)
    (front : (d.head n).queue = e :: rest) :
    d.strikeTimeExpiry n =
      let t := (d.setHead n { d.head n with strikeHigh := false, timer := none }).decideEntry n e .stamped
      if (d.head n).disablePending then t.disableHead n else t.startRecovery n := by
  unfold Device.strikeTimeExpiry
  dsimp only
  rw [front]
  exact if_pos (by simp [striking, due])

theorem Device.recoverTimeExpiry_of_idle (no : (d.head n).state ≠ .recovering ∨ (d.head n).timer.due = false) :
    d.recoverTimeExpiry n = d :=
  if_neg fun yes => by rcases no with state | timer <;> simp_all

theorem Device.decideEntry_headEntry (outcome : Disposition) : (d.decideEntry n e outcome).headEntry n = d.headEntry n := by
  rw [Device.decideEntry_eq, Device.headEntry_setHead, Device.headEntry, Device.headEntry, Device.dispose_sth]

theorem Device.startRecovery_of_dwell (dwell : 0 < (d.headEntry n).recoverTime) :
    d.startRecovery n = d.setHead n { d.head n with
      state := .recovering, timer := Timer.start (d.headEntry n).recoverTime true } := if_neg dwell.ne'

theorem Device.startRecovery_of_none (none : (d.headEntry n).recoverTime = 0) : d.startRecovery n = d.endRecovery n := if_pos none

end

/-- Settles O29: a strike ends in the dwell, in IDLE or in DISABLED, and a dwell in IDLE. -/
theorem strikeAndRecoverTimesEnd : Obligations.StrikeAndRecoverTimesEnd := by
  intro n s service four
  refine ⟨fun e rest striking due front => ?_, fun no => State.event_of service (Device.strikeTimeExpiry_of_idle no),
    fun recovering due => State.event_of service ?_, fun no => State.event_of service (Device.recoverTimeExpiry_of_idle no)⟩
  · have ended := Device.strikeTimeExpiry_of_due striking due front
    have entry : (Device.decideEntry n e .stamped (s.dev.setHead n { s.dev.head n with strikeHigh := false, timer := none })).headEntry n =
        s.dev.headEntry n := Device.decideEntry_headEntry _
    refine ⟨fun pending => State.event_of service ?_, fun stays dwell => State.event_of service ?_,
      fun stays none => State.event_of service ?_⟩
    · exact ended.trans (if_pos pending)
    · refine ended.trans ((if_neg (by simp [stays])).trans ?_)
      rw [Device.startRecovery_of_dwell (entry ▸ dwell), entry]
    · refine ended.trans ((if_neg (by simp [stays])).trans ?_)
      exact Device.startRecovery_of_none (entry.symm ▸ none)
  · exact if_pos (by simp [recovering, due])

end Sys2Proof.Machine
end

section
/-!
PROOF. The line inputs (O31, O32): a sample and its debounce, and a debounced edge by the function of its input.
-/

namespace Sys2Proof.Machine

/-! ### Samples (O31) -/

section
variable {n : Fin 8} {level : Bool} {d : Device}

theorem Device.sampleInput_of_same (same : level = (d.lct.input n).debounced) :
    d.sampleInput n level = d.setInput n { d.lct.input n with raw := level, timer := none } := if_pos same

theorem Device.sampleInput_of_running (differs : level ≠ (d.lct.input n).debounced) (running : (d.lct.input n).timer ≠ none) :
    d.sampleInput n level = d.setInput n { d.lct.input n with raw := level } :=
  (if_neg differs).trans (if_pos (Option.isSome_iff_ne_none.2 running))

theorem Device.sampleInput_of_stopped (differs : level ≠ (d.lct.input n).debounced) (stopped : (d.lct.input n).timer = none) :
    d.sampleInput n level =
      if (d.lct.entry n).debounce = 0 then (d.setInput n { d.lct.input n with raw := level }).debouncedEdge n false
      else d.setInput n { d.lct.input n with raw := level, timer := Timer.start (d.lct.entry n).debounce false } :=
  (if_neg differs).trans (if_neg (by simp [stopped]))

end

/-- Settles O31: a sample by the level, the timer and the debounce time it meets. -/
theorem inputSamplesAreDebounced : Obligations.InputSamplesAreDebounced := by
  intro n level s service
  refine ⟨fun same => State.event_of service (Device.sampleInput_of_same same),
    fun differs running => State.event_of service (Device.sampleInput_of_running differs running),
    fun differs stopped time => State.event_of service ((Device.sampleInput_of_stopped differs stopped).trans (if_neg time.ne')),
    fun differs stopped none => State.event_of service ((Device.sampleInput_of_stopped differs stopped).trans (if_pos none)),
    fun due => State.event_of service (if_pos due), fun no => State.event_of service (if_neg (Bool.eq_false_iff.1 no))⟩

/-! ### The heads of a line that enters FAULTED (O32) -/

section
variable {m : Fin 4} {d : Device}

theorem Device.faultHead_of_setting (setting : (d.head m).state = .setting) :
    d.faultHead m = d.setHead m { d.head m with state := .idle, timer := none, retryUsed := false } := by
  unfold Device.faultHead
  dsimp only
  rw [setting]

theorem Device.faultHead_of_ready (ready : (d.head m).state = .ready) :
    d.faultHead m = d.setHead m { d.head m with state := .idle } := by
  unfold Device.faultHead
  dsimp only
  rw [ready]

theorem Device.faultHead_of_striking {e : StampEntry} {rest : List StampEntry} (striking : (d.head m).state = .striking)
    (front : (d.head m).queue = e :: rest) :
    d.faultHead m =
      let v := Device.decideEntry m e .strikeAborted (d.setHead m { d.head m with state := .idle, strikeHigh := false, timer := none })
      if (d.head m).disablePending then v.disableHead m else v := by
  unfold Device.faultHead
  dsimp only
  rw [striking, front]

theorem Device.faultHead_of_free
    (free : (d.head m).state = .disabled ∨ (d.head m).state = .idle ∨ (d.head m).state = .recovering ∨ (d.head m).state = .stalled) :
    d.faultHead m = d := by
  unfold Device.faultHead
  dsimp only
  rcases free with state | state | state | state <;> rw [state]

end

/-- The heads of a line that enters FAULTED act one after another in some order (R136). -/
theorem Device.faultHeads_order (d : Device) : ∃ (order : List (Fin 4)) (draws : Nat), order.Perm [0, 1, 2, 3] ∧
    d.faultHeads = { order.foldl (fun g m => g.faultHead m) d with draws := draws } := by
  let striking := headNumbers.filter fun n => (d.head n).state == .striking
  let others := headNumbers.filter fun n => (d.head n).state != .striking
  let e := others.foldl (fun d n => d.faultHead n) d
  have acts : d.faultHeads = match striking with | [] => e | _ => e.eachHead striking Device.faultHead := rfl
  have parts : (striking ++ others).Perm [0, 1, 2, 3] := List.filter_append_perm _ headNumbers
  cases found : striking with
  | nil =>
    rw [found] at acts parts
    exact ⟨others, e.draws, parts, acts⟩
  | cons n rest =>
    rw [found] at acts parts
    refine ⟨others ++ e.headOrder (n :: rest), e.draws + 1, ?_, ?_⟩
    · exact (List.perm_append_comm.trans ((sortWith_perm _).append_right others)).trans parts
    · rw [List.foldl_append]
      exact acts

/-! ### The edges (O32) -/

theorem Device.startRefusal_isNone (d : Device) : d.startRefusal.isNone = true ↔
    d.ccu.committing = false ∧ d.ccu.valid = true ∧ d.hev.terms ≠ none ∧ d.sth.table ≠ none := by
  unfold Device.startRefusal
  split_ifs <;> simp_all

/-- The belt run condition as it becomes ACTIVE or INACTIVE, with its latch (R161). -/
def Device.beltChanged (now : Bool) (d : Device) : Device :=
  Device.raise { d with lct := { d.lct with beltRun := now } } (if now then .beltStart else .beltStop)

section
variable {atTick : Bool} {d : Device}

theorem Device.beltEdge_of_same (same : d.lct.formBeltRun = d.lct.beltRun) : d.beltEdge atTick = d := if_pos same

theorem Device.beltEdge_of_start (now : d.lct.formBeltRun = true) (was : d.lct.beltRun = false) :
    d.beltEdge atTick =
      if d.lct.lineState = .paused ∧ d.lct.control.autoResume = true ∧ d.lct.haltCause = .beltRun ∧ d.ccu.committing = false ∧
          d.ccu.valid = true ∧ d.hev.terms ≠ none ∧ d.sth.table ≠ none then (d.beltChanged true).runLine
      else d.beltChanged true := by
  have refusal := (d.beltChanged true).startRefusal_isNone
  unfold Device.beltEdge
  dsimp only
  rw [if_neg (by rw [now, was]; decide), now, if_pos rfl]
  refine if_congr ?_ rfl rfl
  simp only [Bool.and_eq_true, decide_eq_true_eq, and_assoc]
  exact and_congr_right fun _ => and_congr_right fun _ => and_congr_right fun _ => refusal

theorem Device.beltEdge_of_stop (now : d.lct.formBeltRun = false) (was : d.lct.beltRun = true) :
    d.beltEdge atTick = (d.beltChanged false).pauseLine .beltRun atTick := by
  unfold Device.beltEdge
  dsimp only
  rw [if_neg (by rw [now, was]; decide), now]
  rfl

theorem Device.estopEdge_of_same (same : d.lct.formEstop = d.lct.estop) : d.estopEdge atTick = d := if_pos same

theorem Device.estopEdge_of_active (now : d.lct.formEstop = true) (was : d.lct.estop = false) :
    d.estopEdge atTick = (Device.faultLine atTick { d with lct := { d.lct with estop := true } }).raise .estop := by
  unfold Device.estopEdge
  dsimp only
  rw [if_neg (by rw [now, was]; decide), now]
  rfl

theorem Device.estopEdge_of_inactive (now : d.lct.formEstop = false) (was : d.lct.estop = true) :
    d.estopEdge atTick = { d with lct := { d.lct with estop := false }.setLatch .estop LatchState.levelEnd } := by
  unfold Device.estopEdge
  dsimp only
  rw [if_neg (by rw [now, was]; decide), now]
  rfl

theorem Device.faultLine_of_faulted (faulted : d.lct.lineState = .faulted) : d.faultLine atTick = d := by
  unfold Device.faultLine
  rw [faulted]

/-- FAULTED entered: the belt may leave RUNNING, the line control is FAULTED by ESTOP, and the heads follow (R136, R163). -/
theorem Device.faultLine_of_other (after : d.lct.lineState ≠ .init) (other : d.lct.lineState ≠ .faulted) :
    ∃ f : Device, f.lct = { d.lct with lineState := .faulted, haltCause := .estop } ∧ Touches [.bpu, .lct] d f ∧
      d.faultLine atTick = f.faultHeads := by
  unfold Device.faultLine
  cases line : d.lct.lineState with
  | init => exact absurd line after
  | faulted => exact absurd line other
  | running =>
    refine ⟨_, ?_, ?_, rfl⟩
    · rfl
    · exact ((Touches.of_bpu d (d.bpu.leaveRunning atTick)).comp (Touches.of_lct _ _)).weaken rfl
  | idle | paused =>
    refine ⟨_, ?_, ?_, rfl⟩
    · rfl
    · exact (Touches.of_lct d _).weaken rfl

/-- The line paused by a cause: the line control, and the pause retirement timer (R14, R157). -/
theorem Device.pauseLine_parts (cause : HaltCause) :
    (d.pauseLine cause atTick).lct =
        (if d.lct.lineState = .running then { d.lct with lineState := .paused, haltCause := cause } else d.lct) ∧
      (d.pauseLine cause atTick).bpu.pauseTimer =
        if d.lct.lineState = .running ∧ d.bpu.outstanding ≠ [] then Timer.start 50 atTick else d.bpu.pauseTimer := by
  unfold Device.pauseLine
  by_cases running : d.lct.lineState = .running
  · rw [if_pos running, if_pos running]
    refine ⟨rfl, ?_⟩
    show (if d.bpu.outstanding.isEmpty then d.bpu.pauseTimer else Timer.start 50 atTick) = _
    by_cases empty : d.bpu.outstanding = []
    · rw [if_pos (by simp [empty]), if_neg (by simp [empty])]
    · rw [if_neg (by simpa using empty), if_pos ⟨running, empty⟩]
  · rw [if_neg running, if_neg running, if_neg fun both => running both.1]
    exact ⟨rfl, rfl⟩

end

/-- An input's debounced level as an edge sets it (R169). -/
def Device.debounced (n : Fin 8) (d : Device) : Device :=
  d.setInput n { d.lct.input n with debounced := (d.lct.input n).raw, timer := none }

section
variable {n : Fin 8} {atTick : Bool} {d : Device}

theorem Device.debouncedEdge_of_none (none : (d.lct.entry n).enable = false ∨ (d.lct.entry n).function = .unused) :
    d.debouncedEdge n atTick = d.debounced n := by
  show (if (d.lct.entry n).enable then
    match (d.lct.entry n).function with
    | .unused => d.debounced n
    | .beltRun => (d.debounced n).beltEdge atTick
    | .estop => (d.debounced n).estopEdge atTick
    | .event => (d.debounced n).eventInputEdge n
    else d.debounced n) = _
  rcases none with off | unused
  · rw [if_neg (by simp [off])]
  · rw [unused]
    exact ite_self _

theorem Device.debouncedEdge_of_enabled (enabled : (d.lct.entry n).enable = true) :
    d.debouncedEdge n atTick =
      match (d.lct.entry n).function with
      | .unused => d.debounced n
      | .beltRun => (d.debounced n).beltEdge atTick
      | .estop => (d.debounced n).estopEdge atTick
      | .event => (d.debounced n).eventInputEdge n := if_pos enabled

theorem Device.eventInputEdge_of_active (active : d.lct.inputActive n = true) : d.eventInputEdge n = d.raise (.input n) := if_pos active

theorem Device.eventInputEdge_of_inactive (inactive : d.lct.inputActive n = false) :
    d.eventInputEdge n =
      if (d.lct.entry n).levelMode then { d with lct := d.lct.setLatch (.input n) LatchState.levelEnd } else d :=
  if_neg (Bool.eq_false_iff.1 inactive)

theorem Device.debounced_touches (n : Fin 8) (d : Device) : Touches [.lct] d (d.debounced n) := Touches.of_lct d _

end

/-- Settles O32: an edge by its input's function, and the conditions that it forms. -/
theorem debouncedEdgeActsByFunction : Obligations.DebouncedEdgeActsByFunction := by
  refine ⟨fun m d => ⟨Device.faultHead_of_setting, Device.faultHead_of_ready, fun e rest => Device.faultHead_of_striking,
    Device.faultHead_of_free⟩, fun n atTick d => ⟨Device.debouncedEdge_of_none, fun enabled belt => ?_, fun enabled estop => ?_,
      fun enabled event => ?_⟩⟩
  · have edge : d.debouncedEdge n atTick = (d.debounced n).beltEdge atTick := by
      rw [Device.debouncedEdge_of_enabled enabled, belt]
    have touched : Touches [.bpu, .lct] d ((d.debounced n).beltEdge atTick) :=
      ((d.debounced_touches n).comp (Device.beltEdge_touches atTick _)).weaken rfl
    dsimp only
    rw [edge]
    refine ⟨fun same => Device.beltEdge_of_same same, fun now was => ⟨?_, touched⟩, fun now was => ?_⟩
    · rw [Device.beltEdge_of_start (d := d.debounced n) now was, apply_ite Device.lct]
      rfl
    · rw [Device.beltEdge_of_stop (d := d.debounced n) now was] at touched ⊢
      obtain ⟨lct, pause⟩ := Device.pauseLine_parts (atTick := atTick) (d := (d.debounced n).beltChanged false) .beltRun
      exact ⟨lct, pause, touched⟩
  · have edge : d.debouncedEdge n atTick = (d.debounced n).estopEdge atTick := by
      rw [Device.debouncedEdge_of_enabled enabled, estop]
    have touched : Touches [.bpu, .lct, .sth, .hev, .rtk, .lnk, .dec, .draws] d ((d.debounced n).estopEdge atTick) :=
      ((d.debounced_touches n).comp (Device.estopEdge_touches atTick _)).weaken rfl
    dsimp only
    rw [edge]
    refine ⟨fun same => Device.estopEdge_of_same same, fun now was after => ?_,
      fun now was => Device.estopEdge_of_inactive (d := d.debounced n) now was⟩
    rw [Device.estopEdge_of_active (d := d.debounced n) now was] at touched ⊢
    by_cases faulted : d.lct.lineState = .faulted
    · rw [Device.faultLine_of_faulted (d := { d.debounced n with lct := { (d.debounced n).lct with estop := true } }) faulted] at touched ⊢
      rw [if_pos faulted]
      exact ⟨rfl, touched, fun _ => rfl, fun other => absurd faulted other⟩
    · obtain ⟨f, lct, moved, entered⟩ := Device.faultLine_of_other (atTick := atTick)
        (d := { d.debounced n with lct := { (d.debounced n).lct with estop := true } }) after faulted
      obtain ⟨order, draws, perm, heads⟩ := f.faultHeads_order
      rw [entered] at touched ⊢
      rw [if_neg faulted]
      refine ⟨?_, touched, fun yes => absurd yes faulted, fun _ => ⟨f, order, draws, ?_, ?_, perm, ?_⟩⟩
      · have same : f.faultHeads.lct = f.lct := Device.faultHeads_touches f .lct (by decide)
        rw [Device.raise_lct, same, lct]
        rfl
      · rw [lct]
      · exact (((d.debounced_touches n).comp (Touches.of_lct _ _)).comp moved).weaken rfl
      · rw [heads]
  · have edge : d.debouncedEdge n atTick = (d.debounced n).eventInputEdge n := by
      rw [Device.debouncedEdge_of_enabled enabled, event]
    rw [edge]
    exact ⟨fun active => Device.eventInputEdge_of_active active,
      fun inactive edgeMode => (Device.eventInputEdge_of_inactive (d := d.debounced n) inactive).trans
        (if_neg (Bool.eq_false_iff.1 edgeMode)),
      fun inactive levelMode => (Device.eventInputEdge_of_inactive (d := d.debounced n) inactive).trans (if_pos levelMode)⟩

end Sys2Proof.Machine
end

section
/-!
PROOF. Event latches and their report (R171, R173).
-/

namespace Sys2Proof.Machine

/-! ### Lists changed at one place -/

theorem getElem?_updateAt {α : Type} (f : α → α) :
    ∀ (i : Nat) (l : List α) (j : Nat), (updateAt f i l)[j]? = if j = i then l[j]?.map f else l[j]?
  | i, [], j => by cases i <;> simp [updateAt]
  | 0, a :: l, 0 => rfl
  | 0, a :: l, j + 1 => by simp [updateAt]
  | i + 1, a :: l, 0 => by simp [updateAt]
  | i + 1, a :: l, j + 1 => by simpa [updateAt] using getElem?_updateAt f i l j

/-! ### Raises and reports of latches -/

theorem LatchState.raise_eq (x : LatchState) : x.raise = if x = .clear then .pending else x := by cases x <;> rfl

/-- The latch of a bit is reported: it is PENDING and UNMASKED. -/
def Lct.reports (l : Lct) (i : Nat) : Prop := l.latches[i]? = some .pending ∧ l.mask[i]? = some false

theorem Lct.reportable_iff (l : Lct) (i : Nat) : l.reportable[i]? = some true ↔ l.reports i := by
  unfold Lct.reportable Lct.reports
  rw [List.getElem?_zipWith]
  cases l.latches[i]? with
  | none => simp
  | some s => cases l.mask[i]? <;> simp

theorem Lct.wants_iff (l : Lct) : l.wants = true ↔ ∃ i, l.reports i := by
  unfold Lct.wants
  simp only [List.any_eq_true, id_eq, exists_eq_right, List.mem_iff_getElem?, ← l.reportable_iff]

theorem Lct.reports_inside {l : Lct} {i : Nat} (reported : l.reports i) : i < l.latches.length :=
  (List.getElem?_eq_some_iff.1 reported.1).1

theorem Lct.getElem?_latchesAfterReport (l : Lct) {i : Nat} (inside : i < l.latches.length) :
    l.latchesAfterReport[i]? = some
      (if l.reportable.getD i false then (if l.levelActive i then .held else .clear) else l.latches.getD i .clear) := by
  unfold Lct.latchesAfterReport
  simp [inside]

/-- A latch reported is HELD while its level is active, and CLEAR otherwise. -/
theorem Lct.latchesAfterReport_of_reports {l : Lct} {i : Nat} (reported : l.reports i) :
    l.latchesAfterReport[i]? = some (if l.levelActive i then .held else .clear) := by
  have bit : l.reportable.getD i false = true := by
    rw [List.getD_eq_getElem?_getD, l.reportable_iff i |>.2 reported]
    rfl
  rw [l.getElem?_latchesAfterReport (Lct.reports_inside reported), if_pos bit]

theorem Lct.latchesAfterReport_of_not_reports {l : Lct} {i : Nat} (other : ¬ l.reports i) :
    l.latchesAfterReport[i]? = l.latches[i]? := by
  by_cases inside : i < l.latches.length
  · have bit : l.reportable.getD i false = false := by
      refine Bool.eq_false_iff.2 fun yes => other ((l.reportable_iff i).1 ?_)
      rw [List.getD_eq_getElem?_getD] at yes
      cases h : l.reportable[i]? with
      | none => simp [h] at yes
      | some b => simpa [h] using yes
    rw [l.getElem?_latchesAfterReport inside, bit, if_neg Bool.false_ne_true, List.getD_eq_getElem _ _ inside,
      List.getElem?_eq_getElem inside]
  · have length : l.latchesAfterReport.length = l.latches.length := by simp [Lct.latchesAfterReport]
    rw [List.getElem?_eq_none (by omega), List.getElem?_eq_none (by omega)]

/-! ### The EVENT frame -/

theorem Device.eventFrame_bit (d : Device) {i : Nat} (inside : i < 32) :
    (fieldAt 0 4 d.eventFrame.payload).testBit i = true ↔ d.lct.reports i := by
  have stands : StandsAt 0 (bytesOf 4 (bitsOf d.lct.reportable)) d.eventFrame.payload :=
    ⟨[], bytesOf 4 d.bpu.uptime.toNat ++ [d.lct.haltCause.code], by simp [Device.eventFrame], rfl⟩
  rw [stands.testBit_field inside, beq_iff_eq, d.lct.reportable_iff]

theorem Device.askEventPlace_of_reported {d : Device} (wanted : ∃ i, d.lct.reports i) (room : d.reportRoom = true) :
    d.askEventPlace = Device.placeReport d.eventFrame { d with lct := { d.lct with latches := d.lct.latchesAfterReport } } := by
  unfold Device.askEventPlace
  rw [d.lct.wants_iff.2 wanted, room]
  rfl

theorem Device.askEventPlace_of_not_reported {d : Device} (none : (¬ ∃ i, d.lct.reports i) ∨ d.reportRoom = false) :
    d.askEventPlace = d := by
  refine if_neg fun both => ?_
  obtain ⟨wants, room⟩ := Bool.and_eq_true_iff.1 both
  rcases none with unwanted | full
  · exact unwanted (d.lct.wants_iff.1 wants)
  · exact Bool.eq_false_iff.1 full room

/-- Settles O33: a raise by the latch it names, and the report by the latches that it carries. -/
theorem latchesAreRaisedAndReported : Obligations.LatchesAreRaisedAndReported := by
  refine ⟨fun l n i => ?_, fun d latches mask => ⟨fun wanted room => ?_, Device.askEventPlace_of_not_reported⟩⟩
  · simp only [Lct.raise, Lct.setLatch, getElem?_updateAt, funext LatchState.raise_eq]
  · have placed := Device.askEventPlace_of_reported wanted room
    have same : Device.SameLink d { d with lct := { d.lct with latches := d.lct.latchesAfterReport } } := ⟨rfl, rfl⟩
    have moved := Device.placeReport_touches d.eventFrame
      { d with lct := { d.lct with latches := d.lct.latchesAfterReport } }
    have lct : d.askEventPlace.lct = { d.lct with latches := d.lct.latchesAfterReport } := by
      rw [placed]
      exact moved .lct (by decide)
    refine ⟨⟨d.eventFrame, rfl, rfl, ?_, ?_, ?_, ?_, fun i inside => d.eventFrame_bit (by omega)⟩, ?_, fun i reported => ?_,
      fun i other => ?_, ?_⟩
    · rw [placed]
      exact (same.placeReport _).lnk
    · rw [placed]
      exact (same.placeReport _).dec
    · simp [Device.eventFrame]
    · simp [Device.eventFrame]
    · simp only [lct]
    · simp only [lct]
      exact Lct.latchesAfterReport_of_reports reported
    · simp only [lct]
      exact Lct.latchesAfterReport_of_not_reports other
    · rw [placed]
      exact ((Touches.of_lct _ _).comp moved).weaken rfl

end Sys2Proof.Machine
end

section
/-!
PROOF. Commits (R181 to R185, R220): COMMIT_CAL by its tests, and the two ends of a commit.
-/

namespace Sys2Proof.Machine

/-! ### The first UNSET segment -/

section
variable {c : Ccu}

theorem Ccu.firstUnset_of_first {i : Nat} (inside : i < 16) (unset : c.segments.getD i .unset = .unset)
    (before : ∀ j < i, c.segments.getD j .unset ≠ .unset) : c.firstUnset = some i := by
  refine List.find?_range_eq_some.2 ⟨beq_iff_eq.2 unset, List.mem_range.2 inside, fun j earlier => ?_⟩
  simpa using before j earlier

theorem Ccu.firstUnset_of_none (set : ∀ i < 16, c.segments.getD i .unset ≠ .unset) : c.firstUnset = none := by
  refine List.find?_eq_none.2 fun i inside => ?_
  simpa using set i (List.mem_range.1 inside)

end

/-- The detail of an UNSET segment: its table above its number (R179, R220). -/
theorem segmentAt_detail : ∀ i < 16, detailOf (segmentAt i).1.code.toNat (segmentAt i).2 =
    if i < 13 then i else if i < 15 then 256 + (i - 13) else 512 := by decide

/-! ### COMMIT_CAL by its tests (R181) -/

section
variable {sum : Word32} {d : Device}

theorem Device.commitCal_of_notIdle (busy : d.lct.lineState ≠ .idle) : d.commitCal sum = (⟨.wrongState, 1, []⟩, d) :=
  if_pos busy

theorem Device.commitCal_of_locked (idle : d.lct.lineState = .idle)
    (locked : d.ccu.lock.locked = true ∨ d.ccu.audit = topAudit) : d.commitCal sum = (⟨.locked, 0, []⟩, d) :=
  (if_neg (not_not.2 idle)).trans (if_pos (by simpa using locked))

section
variable (idle : d.lct.lineState = .idle) (unlocked : d.ccu.lock.locked = false) (below : d.ccu.audit ≠ topAudit)
include idle unlocked below

theorem Device.commitCal_of_committing (flight : d.ccu.committing = true) : d.commitCal sum = (⟨.notNow, 0, []⟩, d) :=
  ((if_neg (not_not.2 idle)).trans (if_neg (by simp [unlocked, below]))).trans (if_pos flight)

theorem Device.commitCal_of_resting (rests : d.ccu.committing = false) :
    d.commitCal sum =
      match d.ccu.firstUnset with
      | some i => (.refuse .badValue (detailOf (segmentAt i).1.code.toNat (segmentAt i).2), d)
      | none =>
        if sum ≠ checkSum d.ccu.working then (⟨.badChecksum, 0, bytesOf 4 (checkSum d.ccu.working).toNat⟩, d)
        else (.ok ([1] ++ bytesOf 4 d.ccu.audit ++ bytesOf 1 d.ccu.target), d.startCommit) :=
  ((if_neg (not_not.2 idle)).trans (if_neg (by simp [unlocked, below]))).trans (if_neg (by simp [rests]))

theorem Device.commitCal_of_unset (rests : d.ccu.committing = false) {i : Nat} (unset : d.ccu.firstUnset = some i) :
    d.commitCal sum = (⟨.badValue, detailOf (segmentAt i).1.code.toNat (segmentAt i).2, []⟩, d) := by
  rw [Device.commitCal_of_resting idle unlocked below rests, unset]
  rfl

theorem Device.commitCal_of_set (rests : d.ccu.committing = false) (set : d.ccu.firstUnset = none) :
    d.commitCal sum =
      if sum ≠ checkSum d.ccu.working then (⟨.badChecksum, 0, bytesOf 4 (checkSum d.ccu.working).toNat⟩, d)
      else (.ok ([1] ++ bytesOf 4 d.ccu.audit ++ bytesOf 1 d.ccu.target), d.startCommit) := by
  rw [Device.commitCal_of_resting idle unlocked below rests, set]

end

end

/-! ### The erase of the set area (R182) -/

/-- The set area under the erase of a commit that starts. -/
theorem Device.startCommit_setArea (d : Device) :
    d.startCommit.ccu.store.setArea = erasedArea d.draws d.ccu.store.setArea := by
  show erasedArea d.draws (d.ccu.store.setSeal d.ccu.target none).setArea = _
  rw [CalStore.setSeal_setArea]

/-! ### The ends of a commit (R183, R184) -/

/-- What a promotion held back does to the store at the end of a commit (R188). -/
def Ccu.promotedStore (c : Ccu) (st : CalStore) : CalStore :=
  if c.promotionPending then { st with lockCell := some ⟨false, c.lock.locked || c.lock.lockNext⟩ } else st

theorem Ccu.promoteIfPending_eq (c : Ccu) :
    c.promoteIfPending = { c with store := c.promotedStore c.store, promotionPending := false } := by
  unfold Ccu.promoteIfPending Ccu.promotedStore
  split
  · rfl
  · rename_i none
    rw [← Bool.eq_false_iff.2 none]

theorem Ccu.completeCommit_lock (c : Ccu) : c.completeCommit.lock = c.lock :=
  congrArg (Option.getD · _) (CalStore.setSeal_lockCell _ _ _)

theorem Ccu.failCommit_lock (c : Ccu) : c.failCommit.lock = c.lock :=
  congrArg (Option.getD · _) (CalStore.setSeal_lockCell _ _ _)

theorem Ccu.promotedStore_of_same {c e : Ccu} (pending : e.promotionPending = c.promotionPending) (lock : e.lock = c.lock)
    (st : CalStore) : e.promotedStore st = c.promotedStore st := by
  unfold Ccu.promotedStore
  rw [pending, lock]

theorem Device.sealWriteComplete_of_committing {d : Device} (flight : d.ccu.committing = true) :
    d.sealWriteComplete =
      { d with
        ccu := d.ccu.completeCommit.promoteIfPending
        bpu := { d.bpu with divider := d.ccu.completeCommit.promoteIfPending.ppl } } := by
  have ppl : d.ccu.completeCommit.promoteIfPending.ppl = d.ccu.completeCommit.ppl := by
    rw [Ccu.promoteIfPending_eq]
    rfl
  unfold Device.sealWriteComplete
  rw [if_pos flight, ppl]
  rfl

/-- Settles O34: COMMIT_CAL by its tests in order, and a commit by its two ends. -/
theorem commitIsRefusedOrStartsAndEnds : Obligations.CommitIsRefusedOrStartsAndEnds := by
  refine ⟨fun sum s ready => ⟨fun busy => ?_, fun idle => ⟨fun locked => ?_, fun unlocked below => ⟨fun flight => ?_, fun rests =>
    ⟨fun i inside unset before => ?_, fun set => ⟨fun other => ?_, fun same => ?_⟩⟩⟩⟩⟩, fun s service => ⟨fun flight => ?_,
    fun flight due => ?_, fun rests => ⟨?_, ?_⟩, fun notDue => ?_⟩⟩
  · exact exec_of_request ready rfl (Device.commitCal_of_notIdle (d := s.dev.heard) busy)
  · exact exec_of_request ready rfl (Device.commitCal_of_locked (d := s.dev.heard) idle locked)
  · exact exec_of_request ready rfl (Device.commitCal_of_committing (d := s.dev.heard) idle unlocked below flight)
  · have refused := Device.commitCal_of_unset (sum := sum) (d := s.dev.heard) idle unlocked below rests
      (Ccu.firstUnset_of_first inside unset before)
    rw [segmentAt_detail i inside] at refused
    exact exec_of_request ready rfl refused
  · exact exec_of_request ready rfl
      ((Device.commitCal_of_set (d := s.dev.heard) idle unlocked below rests (Ccu.firstUnset_of_none set)).trans (if_pos other))
  · refine ⟨s.dev.heard.startCommit, exec_of_request ready rfl
        ((Device.commitCal_of_set (d := s.dev.heard) idle unlocked below rests (Ccu.firstUnset_of_none set)).trans
          (if_neg (not_not.2 same))), Device.startCommit_touches _, rfl, ?_, fun some => ?_, fun i inside => ?_⟩
    · rw [Device.startCommit_setArea]
      exact erasedArea_length _ _
    · rw [Device.startCommit_setArea]
      exact erasedArea_blank _ some
    · rw [Device.startCommit_setArea]
      exact erasedArea_word _ _ i inside
  · refine ⟨_, State.event_of service (Device.sealWriteComplete_of_committing flight), ?_, rfl, ?_⟩
    · exact Device.sealWriteComplete_of_committing flight ▸ s.dev.sealWriteComplete_touches
    · have promoted := Ccu.promotedStore_of_same (c := s.dev.ccu) (e := s.dev.ccu.completeCommit) rfl s.dev.ccu.completeCommit_lock
      rw [Ccu.promoteIfPending_eq, promoted]
      rfl
  · refine ⟨{ s.dev with ccu := s.dev.ccu.failCommit.promoteIfPending }, State.event_of service (if_pos (by simp [flight, due])),
      Touches.of_ccu _ _, ?_⟩
    have promoted := Ccu.promotedStore_of_same (c := s.dev.ccu) (e := s.dev.ccu.failCommit) rfl s.dev.ccu.failCommit_lock
    rw [Ccu.promoteIfPending_eq, promoted]
    rfl
  · exact State.event_of service (if_neg (by simp [rests]))
  · exact State.event_of service (if_neg (by simp [rests]))
  · exact State.event_of service (if_neg (by simp [notDue]))

end Sys2Proof.Machine
end

section
/-!
PROOF. The downstream transmitter and its FIFOs (R147, R197, R201 to R203, R212, R213): a join, the frame taken when one ends, and the
report place that a frame taken frees.
-/

namespace Sys2Proof.Machine

/-! ### The frame that a transmitter takes -/

section
variable {d : Device}

theorem Device.wakeTx_of_busy (busy : d.lnk.downTx ≠ none) : d.wakeTx = d :=
  if_neg (mt Option.isNone_iff_eq_none.1 busy)

theorem Device.wakeTx_of_idle (idle : d.lnk.downTx = none) : d.wakeTx = d.sendNext :=
  if_pos (Option.isNone_iff_eq_none.2 idle)

section
variable {e : ReplyEntry} {rest : List ReplyEntry}

theorem Device.sendNext_of_part (replies : d.lnk.replyFifo = e :: rest) (more : e.taken + 1 < partCount e.message) :
    d.sendNext = { d with lnk := { d.lnk with
      downTx := some (replyPart e.message e.taken), replyFifo := { e with taken := e.taken + 1 } :: rest } } := by
  unfold Device.sendNext
  rw [replies]
  exact if_neg (Nat.not_le.2 more)

theorem Device.sendNext_of_lastPart (replies : d.lnk.replyFifo = e :: rest) (last : partCount e.message ≤ e.taken + 1) :
    d.sendNext =
      Device.offerReplyPlace { d with lnk := { d.lnk with downTx := some (replyPart e.message e.taken), replyFifo := rest } } := by
  unfold Device.sendNext
  rw [replies]
  exact if_pos last

end

section
variable (replies : d.lnk.replyFifo = [])
include replies

theorem Device.sendNext_of_report {f : Frame} {rest : List Frame} (reports : d.lnk.reportFifo = f :: rest) :
    d.sendNext = { d with lnk := { d.lnk with downTx := some f, reportFifo := rest } } := by
  unfold Device.sendNext
  rw [replies, reports]

theorem Device.sendNext_of_forward {f : Frame} {rest : List Frame} (reports : d.lnk.reportFifo = [])
    (forwards : d.lnk.forwardFifo = f :: rest) :
    d.sendNext = { d with lnk := { d.lnk with downTx := some f, forwardFifo := rest } } := by
  unfold Device.sendNext
  rw [replies, reports, forwards]

theorem Device.sendNext_of_empty (reports : d.lnk.reportFifo = []) (forwards : d.lnk.forwardFifo = []) :
    d.sendNext = { d with lnk := { d.lnk with downTx := none } } := by
  unfold Device.sendNext
  rw [replies, reports, forwards]

end

theorem Device.offerReplyPlace_of_notOwed {d : Device} (notOwed : d.dec.owed = []) : d.offerReplyPlace = d := by
  unfold Device.offerReplyPlace
  rw [notOwed]

theorem Device.offerReplyPlace_eq (d : Device) :
    d.offerReplyPlace = { d with
      lnk := { d.lnk with replyFifo := d.lnk.replyFifo ++ (match d.dec.owed with
        | [] => []
        | kind :: _ => [⟨(Reply.refuse .notNow 1).message kind, 0⟩]) }
      dec := { d.dec with owed := d.dec.owed.tail } } := by
  unfold Device.offerReplyPlace
  cases owed : d.dec.owed with
  | nil =>
    dsimp only
    rw [List.append_nil, List.tail_nil, ← owed]
  | cons kind rest => rfl

end

/-! ### Frames join (R201, R202) -/

section
variable {d : Device} (settled : d.lnk.txSettled) (notOwed : d.dec.owed = [])
include settled notOwed

/-- A reply joins: behind a frame that is sent it stands last, and at an IDLE transmitter its first part goes out. -/
theorem Device.placeReply_settled_eq (kind : Byte) (r : Reply) :
    Answered kind r d (d.placeReply (r.message kind)) ∧ (d.placeReply (r.message kind)).dec = d.dec ∧
      (d.placeReply (r.message kind)).lnk =
        { d.lnk with
          replyFifo := (d.placeReply (r.message kind)).lnk.replyFifo
          downTx := (d.placeReply (r.message kind)).lnk.downTx } := by
  unfold Answered Device.placeReply
  cases sending : d.lnk.downTx with
  | some f =>
    rw [Device.wakeTx_of_busy (by simp [sending])]
    exact ⟨⟨sending, rfl⟩, rfl, rfl⟩
  | none =>
    obtain ⟨replies, _, _⟩ := settled sending
    rw [Device.wakeTx_of_idle (by exact sending)]
    by_cases one : partCount (r.message kind) ≤ 1
    · rw [Device.sendNext_of_lastPart (e := ⟨r.message kind, 0⟩) (rest := []) (by simp [replies]) one,
        Device.offerReplyPlace_of_notOwed (by exact notOwed)]
      simp [one]
    · rw [Device.sendNext_of_part (e := ⟨r.message kind, 0⟩) (rest := []) (by simp [replies]) (Nat.not_le.1 one)]
      simp [one]

omit notOwed in
theorem Device.placeReport_of_room (f : Frame) (room : d.lnk.reportFifo.length < 32) :
    d.placeReport f = { d with lnk :=
      if d.lnk.downTx = none then { d.lnk with downTx := some f } else { d.lnk with reportFifo := d.lnk.reportFifo ++ [f] } } := by
  unfold Device.placeReport
  rw [if_pos (by exact decide_eq_true room)]
  by_cases idle : d.lnk.downTx = none
  · obtain ⟨replies, reports, _⟩ := settled idle
    rw [Device.wakeTx_of_idle (by exact idle), Device.sendNext_of_report (f := f) (rest := []) (by exact replies) (by simp [reports]),
      if_pos idle, ← reports]
  · rw [Device.wakeTx_of_busy (by exact idle), if_neg idle]

omit notOwed in
theorem Device.forwardDown_of_room (f : Frame) (room : d.lnk.forwardFifo.length < 8) :
    d.forwardDown f = { d with lnk :=
      if d.lnk.downTx = none then { d.lnk with downTx := some f } else { d.lnk with forwardFifo := d.lnk.forwardFifo ++ [f] } } := by
  refine (if_pos room).trans ?_
  by_cases idle : d.lnk.downTx = none
  · obtain ⟨replies, reports, forwards⟩ := settled idle
    rw [Device.wakeTx_of_idle (by exact idle),
      Device.sendNext_of_forward (f := f) (rest := []) (by exact replies) (by exact reports) (by simp [forwards]),
      if_pos idle, ← forwards]
  · rw [Device.wakeTx_of_busy (by exact idle), if_neg idle]

end

/-- Settles O35: the joins of the three downstream FIFOs, by what the transmitter does. -/
theorem framesJoinTheirFifosAndWakeTheTransmitter : Obligations.FramesJoinTheirFifosAndWakeTheTransmitter := by
  intro d f kind r settled notOwed
  obtain ⟨answered, decoder, link⟩ := Device.placeReply_settled_eq settled notOwed kind r
  have replies : Touches [.lnk] d (d.placeReply (r.message kind)) := by
    intro part other
    by_cases same : part = .dec
    · subst same
      exact decoder
    · exact Device.placeReply_touches _ _ part (by cases part <;> simp_all)
  exact ⟨⟨answered, replies, link⟩, Device.placeReport_of_room settled f,
    fun full => if_neg fun room => absurd (of_decide_eq_true room) (Nat.not_lt.2 full), Device.forwardDown_of_room settled f,
    fun full => if_neg (Nat.not_lt.2 full)⟩

/-! ### The oldest FINAL record (R91) -/

theorem getElem?_withIndex {α : Type} : ∀ (k : Nat) (l : List α) (i : Nat), (withIndex k l)[i]? = l[i]?.map fun a => (k + i, a)
  | _, [], _ => rfl
  | _, _ :: _, 0 => rfl
  | k, a :: l, i + 1 => by simpa [withIndex, Nat.add_assoc, Nat.add_comm 1] using getElem?_withIndex (k + 1) l i

theorem mem_withIndex {α : Type} {l : List α} {i : Nat} {a : α} : (i, a) ∈ withIndex 0 l ↔ l[i]? = some a := by
  simp only [List.mem_iff_getElem?, getElem?_withIndex, Option.map_eq_some_iff, Prod.mk.injEq, Nat.zero_add]
  constructor
  · rintro ⟨j, b, there, rfl, rfl⟩
    exact there
  · exact fun there => ⟨i, a, there, rfl, rfl⟩

/-- The FINAL record of a slot, with its slot. -/
def finalRecord (x : Nat × Option HideRecord) : Option (Nat × HideRecord) :=
  (x.2.filter fun r => r.disposition ≠ .pending).map fun r => (x.1, r)

/-- The FINAL records of the store, with their slots. -/
def Hev.finals (h : Hev) : List (Nat × HideRecord) := (withIndex 0 h.store).filterMap finalRecord

theorem Hev.mem_finals {h : Hev} {slot : Nat} {r : HideRecord} :
    (slot, r) ∈ h.finals ↔ h.store[slot]? = some (some r) ∧ r.disposition ≠ .pending := by
  unfold Hev.finals finalRecord
  simp only [List.mem_filterMap, Prod.exists, Option.map_eq_some_iff, Option.filter_eq_some_iff, mem_withIndex, Prod.mk.injEq,
    decide_eq_true_eq]
  constructor
  · rintro ⟨i, x, there, y, ⟨rfl, final⟩, rfl, rfl⟩
    exact ⟨there, final⟩
  · exact fun ⟨there, final⟩ => ⟨slot, some r, there, r, ⟨rfl, final⟩, rfl, rfl⟩

theorem Hev.oldestFinal_eq (h : Hev) : h.oldestFinal = h.finals.foldl (olderHide h.nextHide) none := by
  unfold Hev.oldestFinal Hev.finals
  rw [List.foldl_filterMap]
  congr 1
  funext best x
  obtain ⟨slot, _ | r⟩ := x
  · rfl
  · by_cases final : r.disposition = .pending <;> simp [finalRecord, Option.filter, final]

/-- The older of the best so far and another. -/
theorem olderHide_spec (next : Word32) (best : Option (Nat × HideRecord)) (x : Nat × HideRecord) :
    ∃ y, olderHide next best x = some y ∧ (best = some y ∨ y = x) ∧ behind next x.2.number ≤ behind next y.2.number ∧
      ∀ z, best = some z → behind next z.2.number ≤ behind next y.2.number := by
  cases best with
  | none => exact ⟨x, rfl, .inr rfl, le_rfl, fun _ other => nomatch other⟩
  | some z =>
    by_cases newer : behind next z.2.number < behind next x.2.number
    · exact ⟨x, if_pos newer, .inr rfl, le_rfl, fun _ same => Option.some.inj same ▸ newer.le⟩
    · exact ⟨z, if_neg newer, .inl rfl, Nat.not_lt.1 newer, fun _ same => Option.some.inj same ▸ le_rfl⟩

/-- The oldest of a list of records: one of them, behind the next hide number at least as far as each. -/
theorem foldl_olderHide (next : Word32) (l : List (Nat × HideRecord)) :
    (l.foldl (olderHide next) none = none ↔ l = []) ∧
      ∀ y, l.foldl (olderHide next) none = some y → y ∈ l ∧ ∀ x ∈ l, behind next x.2.number ≤ behind next y.2.number := by
  induction l using List.reverseRecOn with
  | nil => exact ⟨⟨fun _ => rfl, fun _ => rfl⟩, fun _ other => nomatch other⟩
  | append_singleton l x ih =>
    obtain ⟨empty, oldest⟩ := ih
    obtain ⟨y, older, from', newest, before⟩ := olderHide_spec next (l.foldl (olderHide next) none) x
    rw [List.foldl_append, List.foldl_cons, List.foldl_nil, older]
    refine ⟨by simp, fun z same => ?_⟩
    obtain rfl := Option.some.inj same
    refine ⟨?_, List.forall_mem_append.2 ⟨fun z there => ?_, by simpa using newest⟩⟩
    · rcases from' with best | rfl
      · exact List.mem_append_left _ (oldest _ best).1
      · exact List.mem_append_right _ (List.mem_singleton_self _)
    · cases best : l.foldl (olderHide next) none with
      | none => exact absurd there (by simp [empty.1 best])
      | some w => exact ((oldest w best).2 z there).trans (before w best)

/-! ### The lowest slot held, and its PACK frame (R147, R148) -/

theorem headNumbers_find? : ∀ (p : Fin 4 → Bool),
    (headNumbers.find? p = none ↔ ∀ n, p n = false) ∧
      ∀ n, headNumbers.find? p = some n ↔ p n = true ∧ ∀ m < n, p m = false := by decide

theorem Device.heldSlot_iff (d : Device) :
    (d.heldSlot = none ↔ ∀ n, (d.slot n).buf = none) ∧
      ∀ n, d.heldSlot = some n ↔ (d.slot n).buf ≠ none ∧ ∀ m < n, (d.slot m).buf = none := by
  obtain ⟨none, some⟩ := headNumbers_find? fun n => (d.slot n).buf.isSome
  simp only [Option.isSome_eq_false_iff, Option.isNone_iff_eq_none, Option.isSome_iff_ne_none] at none some
  exact ⟨none, some⟩

section
variable {n : Fin 4} {c : ClosedPack} {d : Device} (four : d.pku.slots.length = 4) (held : (d.slot n).buf = some c)
include four held

/-- The slot after its PACK frame is placed. -/
theorem Device.slot_placed :
    (Device.placeReport (packFrame n c) (d.setSlot n { d.slot n with buf := none })).slot n = { d.slot n with buf := none } := by
  have pku := Device.placeReport_touches (packFrame n c) (d.setSlot n { d.slot n with buf := none }) .pku (by decide)
  exact (congrArg (fun p : Pku => p.slots.getD n ⟨none, none⟩) pku).trans (Device.slot_setSlot four)

theorem Device.reportPack_of_open (stays : ∀ p, (d.slot n).acc = some p → p.hides < p.target) :
    d.reportPack n = Device.placeReport (packFrame n c) (d.setSlot n { d.slot n with buf := none }) := by
  unfold Device.reportPack
  rw [held]
  dsimp only
  rw [Device.slot_placed four held]
  cases filling : (d.slot n).acc with
  | none => rfl
  | some p => exact if_pos (stays p filling)

theorem Device.reportPack_of_full {p : Pack} (filling : (d.slot n).acc = some p) (full : p.target ≤ p.hides) :
    let placed := Device.placeReport (packFrame n c) (d.setSlot n { d.slot n with buf := none })
    let closed : ClosedPack := ⟨p, ⟨false, decide (p.target < p.hides), false⟩, d.bpu.uptime⟩
    d.reportPack n = if placed.reportRoom then Device.placeReport (packFrame n closed) (placed.setSlot n ⟨none, none⟩)
      else placed.setSlot n ⟨none, some closed⟩ := by
  intro placed closed
  have touched := Device.placeReport_touches (packFrame n c) (d.setSlot n { d.slot n with buf := none })
  have slots : placed.pku.slots.length = 4 := by
    have pku : placed.pku = (d.setSlot n { d.slot n with buf := none }).pku := touched .pku (by decide)
    rw [pku, Device.setSlot_pku, List.length_set]
    exact four
  have slot : placed.slot n = { d.slot n with buf := none } := Device.slot_placed four held
  have flags : (if p.hides = p.target then CloseFlags.none else .overfullOnly) = ⟨false, decide (p.target < p.hides), false⟩ := by
    by_cases equal : p.hides = p.target
    · simp [equal, CloseFlags.none]
    · simp [equal, CloseFlags.overfullOnly, lt_of_le_of_ne full (Ne.symm equal)]
  have uptime : placed.bpu.uptime = d.bpu.uptime := congrArg Bpu.uptime (touched .bpu (by decide))
  have closes := Device.closePack_eq (d := placed) (if p.hides = p.target then .none else .overfullOnly) slots (by rw [slot]; exact filling)
    (by rw [slot])
  rw [flags, uptime] at closes
  unfold Device.reportPack
  rw [held]
  dsimp only
  rw [Device.slot_placed four held]
  split
  · rename_i empty
    exact nomatch filling.symm.trans empty
  · rename_i q same
    obtain rfl := Option.some.inj (filling.symm.trans same)
    refine (if_neg (Nat.not_lt.2 full)).trans ?_
    rw [flags]
    exact closes

end

/-! ### The end of a frame (R197, R203) -/

section
variable {d : Device} (busy : d.lnk.downTx ≠ none)
include busy

theorem Device.endDownFrame_of_other (other : d.lnk.replyFifo ≠ [] ∨ d.lnk.reportFifo = []) : d.endDownFrame = d.sendNext := by
  refine (if_neg (mt Option.isNone_iff_eq_none.1 busy)).trans (if_neg ?_)
  rcases other with replies | reports
  · simp [replies]
  · simp [reports]

theorem Device.endDownFrame_of_report (replies : d.lnk.replyFifo = []) {f : Frame} {rest : List Frame}
    (reports : d.lnk.reportFifo = f :: rest) : d.endDownFrame = d.sendNext.offerReportPlace :=
  (if_neg (mt Option.isNone_iff_eq_none.1 busy)).trans (if_pos (by simp [replies, reports]))

end

theorem Device.endUpFrame_of_busy {d : Device} (busy : d.lnk.upTx ≠ none) :
    d.endUpFrame = { d with lnk := { d.lnk with upTx := d.lnk.upFifo.head?, upFifo := d.lnk.upFifo.tail } } := by
  refine (if_neg (mt Option.isNone_iff_eq_none.1 busy)).trans ?_
  cases held : d.lnk.upFifo with
  | nil => exact congrArg (fun q => ({ d with lnk := { d.lnk with upTx := none, upFifo := q } } : Device)) held
  | cons f rest => rfl

/-- Settles O36: the oldest FINAL record, the lowest slot held, its PACK frame, and the frames that the transmitters take. -/
theorem frameEndTakesTheNextFrameInOrder : Obligations.FrameEndTakesTheNextFrameInOrder := by
  refine ⟨fun h => ⟨?_, fun slot r oldest => ?_⟩, Device.heldSlot_iff, fun n c d four held =>
    ⟨fun empty => Device.reportPack_of_open four held (by simp [empty]),
      fun p filling => ⟨fun short => Device.reportPack_of_open four held fun q same => Option.some.inj (filling.symm.trans same) ▸ short,
        Device.reportPack_of_full four held filling⟩⟩, fun s service => ⟨fun idle => ?_, fun busy =>
      ⟨fun e rest replies more => ?_, fun e rest replies last => ?_, fun f rest replies reports => ?_,
        fun f rest replies reports forwards => ?_, fun replies reports forwards => ?_⟩, fun idle => ?_, fun busy => ?_⟩⟩
  · rw [h.oldestFinal_eq, (foldl_olderHide _ _).1, List.eq_nil_iff_forall_not_mem]
    constructor
    · exact fun empty i x there => not_not.1 fun final => empty (i, x) (Hev.mem_finals.2 ⟨there, final⟩)
    · exact fun pending x there => (Hev.mem_finals.1 there).2 (pending _ _ (Hev.mem_finals.1 there).1)
  · rw [h.oldestFinal_eq] at oldest
    obtain ⟨there, first⟩ := (foldl_olderHide _ _).2 _ oldest
    obtain ⟨stored, final⟩ := Hev.mem_finals.1 there
    exact ⟨stored, final, fun i x at' final' => first (i, x) (Hev.mem_finals.2 ⟨at', final'⟩)⟩
  · exact State.event_of service (if_pos (Option.isNone_iff_eq_none.2 idle))
  · exact State.event_of service
      ((Device.endDownFrame_of_other busy (.inl (by simp [replies]))).trans (Device.sendNext_of_part replies more))
  · refine State.event_of service ((Device.endDownFrame_of_other busy (.inl (by simp [replies]))).trans
      ((Device.sendNext_of_lastPart replies last).trans ?_))
    exact Device.offerReplyPlace_eq _
  · refine State.event_of service ((Device.endDownFrame_of_report busy replies reports).trans ?_)
    rw [Device.sendNext_of_report replies reports]
    unfold Device.offerReportPlace
    show (match s.dev.hev.oldestFinal with
      | some (slot, r) => _
      | none => match s.dev.heldSlot with | some n => _ | none => _) = _
    cases s.dev.hev.oldestFinal with
    | some x => rfl
    | none => cases s.dev.heldSlot <;> rfl
  · exact State.event_of service
      ((Device.endDownFrame_of_other busy (.inr reports)).trans (Device.sendNext_of_forward replies reports forwards))
  · exact State.event_of service
      ((Device.endDownFrame_of_other busy (.inr reports)).trans (Device.sendNext_of_empty replies reports forwards))
  · exact State.event_of service (if_pos (Option.isNone_iff_eq_none.2 idle))
  · exact State.event_of service (Device.endUpFrame_of_busy busy)

end Sys2Proof.Machine
end

section
/-!
PROOF. Frames that are routed (R195 to R198, R212, R213): requests that are not performed, frames of the bar, and frames discarded.
-/

namespace Sys2Proof.Machine

/-! ### A message as the request that it is (R209, R212) -/

/-- A row of a kind of request, and not the one of a message of unknown kind or wrong length. -/
def Instr.KnownAs (kind : Byte) (c : Instr) : Prop := requestKind c = some kind ∧ ∀ k message, c ≠ .unknownRequest k message

theorem readCommand_known (area segment : Byte) : Instr.KnownAs kindRead (readCommand area segment) := by
  unfold readCommand
  repeat' split
  all_goals exact ⟨rfl, nofun⟩

theorem flagsCommand_known (set : Bool) (message : List Byte) :
    Instr.KnownAs (if set then kindSetFlags else kindClearFlags) (flagsCommand set message) := by
  unfold flagsCommand
  cases set
  · rw [if_neg Bool.false_ne_true]
    dsimp only
    rw [if_neg Bool.false_ne_true]
    split <;> exact ⟨rfl, nofun⟩
  · rw [if_pos rfl]
    dsimp only
    rw [if_pos rfl]
    split <;> exact ⟨rfl, nofun⟩

/-- The kinds of the requests that a message can be (R209). -/
def knownKinds : List Byte :=
  [kindQuery, kindStart, kindStop, kindAckFault, kindFlush, kindLineReset, kindLoad, kindCommitCal, kindRead, kindSetFlags, kindClearFlags,
    kindHeadEnable, kindClearStall, kindClosePack, kindLockNext, kindClearCounters]

theorem mem_knownKinds_of_requestLength : ∀ kind : Byte, (requestLength kind).isSome = true → kind ∈ knownKinds := by decide

theorem mem_knownKinds_of_legal {kind : Byte} {n : Nat} (legal : messageLegal kind n = true) : kind ∈ knownKinds := by
  refine mem_knownKinds_of_requestLength kind ?_
  unfold messageLegal at legal
  cases length : requestLength kind with
  | none =>
    rw [length] at legal
    exact absurd legal Bool.false_ne_true
  | some bounds => rfl

theorem requestCommand_known {kind : Byte} {message : List Byte} (legal : messageLegal kind message.length = true)
    (other : kind ≠ kindLoad) : Instr.KnownAs kind (requestCommand kind message) := by
  have known := mem_knownKinds_of_legal legal
  unfold requestCommand
  rw [if_neg (by rw [legal]; exact Bool.false_ne_true)]
  simp only [knownKinds, List.mem_cons, List.not_mem_nil, or_false] at known
  rcases known with rfl | rfl | rfl | rfl | rfl | rfl | rfl | rfl | rfl | rfl | rfl | rfl | rfl | rfl | rfl | rfl
  case inr.inr.inr.inr.inr.inr.inl => exact absurd rfl other
  case inr.inr.inr.inr.inr.inr.inr.inr.inl => exact readCommand_known _ _
  case inr.inr.inr.inr.inr.inr.inr.inr.inr.inl => exact flagsCommand_known true _
  case inr.inr.inr.inr.inr.inr.inr.inr.inr.inr.inl => exact flagsCommand_known false _
  case inr.inr.inr.inr.inr.inr.inr.inr.inr.inr.inr.inl =>
    show Instr.KnownAs kindHeadEnable (if byteAt 1 message = 0 then _ else _)
    split <;> exact ⟨rfl, nofun⟩
  all_goals exact ⟨rfl, nofun⟩

theorem requestCommand_of_illegal {kind : Byte} {message : List Byte} (illegal : messageLegal kind message.length = false) :
    requestCommand kind message = .unknownRequest kind message := if_pos (by simp [illegal])

theorem requestKind_requestCommand (kind : Byte) (message : List Byte) (other : kind ≠ kindLoad) :
    requestKind (requestCommand kind message) = some kind := by
  cases legal : messageLegal kind message.length with
  | false => rw [requestCommand_of_illegal legal]; rfl
  | true => exact (requestCommand_known legal other).1

/-! ### Requests without a reply place (R212, R213) -/

/-- A row that is a request answers on arrival, or waits for the tracker. -/
theorem exec_of_requestKind {c : Instr} {kind : Byte} (h : requestKind c = some kind) (s : State) :
    (∃ perform, exec c s = s.request kind perform) ∨ ∃ w : Waiting, w.kind = kind ∧ exec c s = s.waitingRequest w := by
  cases c
  case flush => exact .inr ⟨.flush, Option.some.inj h, rfl⟩
  case lineReset => exact .inr ⟨.lineReset, Option.some.inj h, rfl⟩
  case readRegions segment => exact .inr ⟨.readRegions segment, Option.some.inj h, rfl⟩
  all_goals first
    | (cases h; done)
    | (cases h; exact .inl ⟨_, rfl⟩)

theorem Device.noReplyPlace_iff (d : Device) :
    d.noReplyPlace = true ↔ 4 ≤ d.lnk.replyFifo.length + d.dec.reservations ∨ d.dec.owed ≠ [] := by
  exact (Bool.or_eq_true _ _ ▸ or_congr decide_eq_true_iff (by simp))

/-- Settles O43: requests refused by their message, and requests that find no reply place. -/
theorem requestsThatAreNotPerformed : Obligations.RequestsThatAreNotPerformed := by
  refine ⟨fun a b data s ready => ⟨exec_of_request ready rfl rfl, exec_of_request ready rfl rfl, exec_of_request ready rfl rfl⟩,
    fun kind message other => ⟨⟨requestCommand_of_illegal, fun unknown => ?_⟩, requestKind_requestCommand kind message other⟩,
    fun c kind s named service full => ?_⟩
  · refine Bool.eq_false_iff.2 fun legal => ?_
    exact (requestCommand_known legal other).2 kind message unknown
  · have noPlace : s.dev.heard.noReplyPlace = true := s.dev.heard.noReplyPlace_iff.2 full
    rcases exec_of_requestKind named s with ⟨perform, row⟩ | ⟨w, rfl, row⟩
    · rw [row]
      exact State.event_of service (if_pos noPlace)
    · rw [row]
      exact State.event_of service (if_pos noPlace)

/-! ### Frames of the bar (R196 to R198) -/

section
variable {d : Device} {f : Frame} (room : d.lnk.upFifo.length < 4)
include room

theorem Device.forwardUp_of_busy (busy : d.lnk.upTx ≠ none) :
    d.forwardUp f = { d with lnk := { d.lnk with upFifo := d.lnk.upFifo ++ [f] } } := by
  unfold Device.forwardUp
  rw [if_pos (by exact room)]
  cases sending : d.lnk.upTx with
  | none => exact absurd sending busy
  | some g => rfl

theorem Device.forwardUp_of_idle (idle : d.lnk.upTx = none) (empty : d.lnk.upFifo = []) :
    d.forwardUp f = { d with lnk := { d.lnk with upTx := some f } } := by
  unfold Device.forwardUp
  rw [if_pos (by exact room), idle, empty]
  exact congrArg (fun q => ({ d with lnk := { d.lnk with upTx := some f, upFifo := q } } : Device)) empty.symm

end

/-- Settles O37: frames of the bar and to it, by their routes. -/
theorem barFramesAreForwarded : Obligations.BarFramesAreForwarded := by
  intro kind addr payload s service
  refine ⟨(State.received_next service _).2, ⟨fun room => ⟨fun busy => ?_, fun idle empty => ?_⟩, fun full => ?_⟩,
    (State.received_next service _).1⟩
  · exact State.event_of service (Device.forwardUp_of_busy (d := s.dev.heard) room busy)
  · exact State.event_of service (Device.forwardUp_of_idle (d := s.dev.heard) room idle empty)
  · exact State.event_of service (if_neg (Nat.not_lt.2 full))

/-! ### Frames discarded (R195) -/

section
variable {port : Port} {d : Device} {b : Byte}

theorem Device.takeByte_of_hunting (hunting : d.lnk.receiver port = .hunting) :
    d.takeByte port b = if b = startDelimiter then d.setReceiver port (.receiving [] (Timer.start 1 false)) else d := by
  unfold Device.takeByte
  rw [hunting]

section
variable {before : List Byte} {timeout : Timer} (receiving : d.lnk.receiver port = .receiving before timeout)
include receiving

theorem Device.takeByte_of_incomplete (judged : judge (before ++ [b]) = .incomplete) :
    d.takeByte port b = d.setReceiver port (.receiving (before ++ [b]) timeout) := by
  unfold Device.takeByte
  rw [receiving]
  dsimp only
  rw [judged]

theorem Device.takeByte_of_discard (judged : judge (before ++ [b]) = .discard) :
    d.takeByte port b = d.received port Device.discardFrame := by
  unfold Device.takeByte
  rw [receiving]
  dsimp only
  rw [judged]

theorem Device.takeByte_of_good {f : Frame} (judged : judge (before ++ [b]) = .good f) :
    d.takeByte port b = d.received port (Device.route port f) := by
  unfold Device.takeByte
  rw [receiving]
  dsimp only
  rw [judged]

theorem Device.frameTimeout_of_receiving :
    d.frameTimeout port = if timeout.due then (d.setReceiver port .hunting).discardFrame else d := by
  unfold Device.frameTimeout
  rw [receiving]

end

end

/-- The command of a good frame is the route of that frame. -/
theorem exec_upstreamCommand (f : Frame) (s : State) :
    exec (upstreamCommand f) s = s.event (Device.received .upstream (Device.route .upstream f)) := by
  show _ = s.event (Device.received .upstream (Device.routeUpstream f))
  unfold upstreamCommand Device.routeUpstream
  by_cases line : f.kind = kindLine
  · simp only [if_pos line]
    rfl
  · simp only [if_neg line]
    rfl

theorem exec_downstreamCommand (f : Frame) (s : State) :
    exec (downstreamCommand f) s = s.event (Device.received .downstream (Device.route .downstream f)) := by
  show _ = s.event (Device.received .downstream (Device.routeDownstream f))
  unfold downstreamCommand Device.routeDownstream
  by_cases part : f.addr = targetPart
  · simp only [if_pos part]
    by_cases load : f.kind = kindLoad
    · simp only [if_pos load]
      rfl
    · simp only [if_neg load]
      exact exec_request (requestKind_requestCommand f.kind f.payload load) load s
  · simp only [if_neg part]
    by_cases bar : f.addr = targetBar
    · simp only [if_pos bar]
      obtain ⟨kind, addr, payload⟩ := f
      obtain rfl : addr = targetBar := bar
      rfl
    · simp only [if_neg bar]
      rfl

/-- Settles O38: the bytes of a port one by one, by the receiver's state and what the bytes gathered come to. -/
theorem unfinishedAndBadFramesAreDiscarded : Obligations.UnfinishedAndBadFramesAreDiscarded := by
  intro s service counted port
  refine ⟨⟨rfl, fun front back => exec_discardedFrame_append port front back s⟩, fun b hunting => ⟨fun other => ?_, fun start => ?_⟩,
    fun b before timeout receiving => ⟨fun judged => ?_, fun judged => ?_, fun f judged => ?_⟩,
    fun before timeout receiving => ⟨fun due => ?_, fun notDue => ?_⟩, fun hunting => ?_⟩
  · exact State.event_of service ((Device.takeByte_of_hunting hunting).trans (if_neg other))
  · exact State.event_of service ((Device.takeByte_of_hunting hunting).trans (if_pos start))
  · exact State.event_of service (Device.takeByte_of_incomplete receiving judged)
  · exact State.event_of service (Device.takeByte_of_discard receiving judged)
  · have taken : exec (.discardedFrame port [b]) s = s.event (Device.received port (Device.route port f)) := by
      rw [exec_discardedFrame_byte, State.event_next service, State.event_next service,
        Device.takeByte_of_good receiving judged]
    rw [taken]
    cases port with
    | upstream => exact (exec_upstreamCommand f s).symm
    | downstream => exact (exec_downstreamCommand f s).symm
  · exact State.event_of service ((Device.frameTimeout_of_receiving receiving).trans (if_pos due))
  · exact State.event_of service ((Device.frameTimeout_of_receiving receiving).trans (if_neg (by simp [notDue])))
  · refine State.event_of (u := s.dev) service ?_
    unfold Device.frameTimeout
    rw [hunting]

end Sys2Proof.Machine
end

section
/-!
PROOF. Frames as bytes (R193 to R195) and the load assembly (R200).
-/

namespace Sys2Proof.Machine

/-! ### A frame judged (R195) -/

theorem bytesOf_two (n : Nat) : ∃ high low : Byte, bytesOf 2 n = [high, low] := ⟨_, _, rfl⟩

/-- The judgement of bytes that hold a legal length. -/
theorem judge_of_length {kind addr : Byte} {n : Nat} (legal : n ≤ 256) (rest : List Byte) :
    judge (kind :: addr :: (bytesOf 2 n ++ rest)) =
      if rest.length < n + 2 then .incomplete
      else if natOf ((rest.drop n).take 2) = (crc16 (Frame.body ⟨kind, addr, rest.take n⟩)).toNat then .good ⟨kind, addr, rest.take n⟩
      else .discard := by
  obtain ⟨high, low, length⟩ := bytesOf_two n
  have value : natOf [high, low] = n := by
    rw [← length, natOf_bytesOf]
    exact Nat.mod_eq_of_lt (by omega)
  rw [length, List.cons_append, List.cons_append, List.nil_append, judge]
  dsimp only
  rw [value, if_neg (Nat.not_lt.2 legal)]

/-- The judgement of a frame's body with two bytes behind it. -/
theorem judge_of_body {f : Frame} (legal : f.payload.length ≤ 256) {check : Nat} (range : check < 65536) :
    judge (f.body ++ bytesOf 2 check) = if check = (crc16 f.body).toNat then .good f else .discard := by
  have bytes : f.body ++ bytesOf 2 check = f.kind :: f.addr :: (bytesOf 2 f.payload.length ++ (f.payload ++ bytesOf 2 check)) := by
    simp [Frame.body]
  have value : natOf (bytesOf 2 check) = check := (natOf_bytesOf 2 check).trans (Nat.mod_eq_of_lt range)
  have last : (bytesOf 2 check).take 2 = bytesOf 2 check := List.take_of_length_le (by simp)
  rw [bytes, judge_of_length legal, if_neg (by simp), List.take_left, List.drop_left, last, value]

/-- A part of a frame that is not all of it is not yet judged. -/
theorem judge_of_part {f : Frame} (legal : f.payload.length ≤ 256) (check k : Nat)
    (part : k < (f.body ++ bytesOf 2 check).length) : judge ((f.body ++ bytesOf 2 check).take k) = .incomplete := by
  have bytes : f.body ++ bytesOf 2 check = f.kind :: f.addr :: (bytesOf 2 f.payload.length ++ (f.payload ++ bytesOf 2 check)) := by
    simp [Frame.body]
  rw [bytes] at part ⊢
  match k with
  | 0 | 1 | 2 | 3 => rfl
  | k + 4 =>
    have taken : (f.kind :: f.addr :: (bytesOf 2 f.payload.length ++ (f.payload ++ bytesOf 2 check))).take (k + 4) =
        f.kind :: f.addr :: (bytesOf 2 f.payload.length ++ (f.payload ++ bytesOf 2 check).take k) := rfl
    rw [taken, judge_of_length legal, if_pos]
    simp at part ⊢
    omega

/-- Settles O39: the bytes of a frame are judged as that frame, with all of them there and its check sum. -/
theorem frameBytesAreReadBackAsTheFrame : Obligations.FrameBytesAreReadBackAsTheFrame := by
  intro f check legal
  exact ⟨rfl, (judge_of_body legal (crc16 f.body).isLt).trans (if_pos rfl), fun k part => judge_of_part legal _ k part,
    fun range other => (judge_of_body legal range).trans (if_neg other)⟩

/-! ### The load assembly (R200) -/

section
variable {part : Byte} {bytes : List Byte} {d : Device}

/-- An abandonment: the assembly is empty, and it is counted. -/
def Device.abandoned (d : Device) : Device :=
  Device.raise { d with lnk := { d.lnk with assembly := none, incompleteLoads := sat16 d.lnk.incompleteLoads 1 } } .linkError

/-- A LOAD message delivered whole. -/
def Device.delivered (message : List Byte) (d : Device) : Device :=
  Device.answer kindLoad (Device.performLoad message) { d with lnk := { d.lnk with assembly := none } }

/-- The first part of a LOAD message. -/
def Device.firstPart (part : Byte) (bytes : List Byte) (d : Device) : Device :=
  if part.msb then d.delivered bytes
  else { d with lnk := { d.lnk with assembly := some ⟨1, bytes, Timer.start 50 false⟩ } }

theorem Device.countAbandoned_of_empty (empty : d.lnk.assembly = none) : d.countAbandoned = d.abandoned := by
  have same : d.setAssembly none = d := congrArg (fun a => ({ d with lnk := { d.lnk with assembly := a } } : Device)) empty.symm
  exact congrArg Device.countAbandoned same.symm

theorem Device.takeLoad_of_empty (empty : d.lnk.assembly = none) : d.takeLoad bytes = d.delivered bytes := by
  have same : d.setAssembly none = d := congrArg (fun a => ({ d with lnk := { d.lnk with assembly := a } } : Device)) empty.symm
  exact congrArg (Device.takeLoad bytes) same.symm

theorem Device.openPart_eq (empty : d.lnk.assembly = none) :
    d.openPart part bytes = if part.toNat % 16 = 0 then d.firstPart part bytes else d.abandoned := by
  unfold Device.openPart
  by_cases first : partIndex part = 0
  · rw [if_neg (not_not.2 first), Device.takeLoad_of_empty empty]
    exact (if_pos first).symm
  · rw [if_pos first, Device.countAbandoned_of_empty empty]
    exact (if_neg first).symm

theorem Device.nextPart_eq (a : Assembly) :
    d.nextPart a part bytes =
      if part.toNat % 16 = 0 then d.abandoned.firstPart part bytes
      else if part.toNat % 16 = a.next ∧ part.msb = true then d.delivered (a.bytes ++ bytes)
      else if part.toNat % 16 = a.next ∧ a.next < 15 then
        { d with lnk := { d.lnk with assembly := some ⟨a.next + 1, a.bytes ++ bytes, Timer.start 50 false⟩ } }
      else d.abandoned := by
  unfold Device.nextPart
  by_cases first : partIndex part = 0
  · rw [if_pos first]
    exact ((Device.openPart_eq (d := d.abandoned) rfl).trans (if_pos first)).trans (if_pos first).symm
  · rw [if_neg first]
    exact (if_neg first).symm

theorem Device.takePart_of_empty (empty : d.lnk.assembly = none) : d.takePart (part :: bytes) = d.openPart part bytes := by
  simp only [Device.takePart, empty]

theorem Device.takePart_of_open {a : Assembly} (there : d.lnk.assembly = some a) :
    d.takePart (part :: bytes) = d.nextPart a part bytes := by
  simp only [Device.takePart, there]

theorem Device.partTimeout_of_open {a : Assembly} (there : d.lnk.assembly = some a) :
    d.partTimeout = if a.timeout.due then d.abandoned else d := by
  simp only [Device.partTimeout, there]
  rfl

end

theorem ite_askEventPlace {p : Prop} [Decidable p] (d e : Device) :
    (if p then d else e).askEventPlace = if p then d.askEventPlace else e.askEventPlace := apply_ite _ _ _ _

/-- Settles O40: a part by the assembly it finds and its index, and the part time-out. -/
theorem loadPartsAreAssembled : Obligations.LoadPartsAreAssembled := by
  intro part bytes s service d abandoned index deliver opened
  have first : ∀ e : Device, (e.firstPart part bytes).askEventPlace = opened e := fun e => ite_askEventPlace _ _
  refine ⟨fun empty => ?_, fun a there => ⟨?_, fun due => ?_, fun notDue => ?_⟩, (State.received_next service _).1, fun empty => ?_⟩
  · have taken := (Device.takePart_of_empty (part := part) (bytes := bytes) (d := d) empty).trans (Device.openPart_eq empty)
    refine (State.event_of service taken).trans ?_
    rw [ite_askEventPlace, first]
    rfl
  · have taken := (Device.takePart_of_open (part := part) (bytes := bytes) (d := d) there).trans (Device.nextPart_eq a)
    refine (State.event_of service taken).trans ?_
    rw [ite_askEventPlace, ite_askEventPlace, ite_askEventPlace, first]
    rfl
  · exact State.event_of service ((Device.partTimeout_of_open there).trans (if_pos due))
  · exact State.event_of service ((Device.partTimeout_of_open there).trans (if_neg (by simp [notDue])))
  · refine State.event_of (u := s.dev) service ?_
    simp only [Device.partTimeout, empty]

end Sys2Proof.Machine
end

section
/-!
PROOF. LINE_RESET of every block (R166, R217), and the requests on the flag words (R222, R223).
-/

namespace Sys2Proof.Machine

/-! ### LINE_RESET -/

theorem Head.lineReset_eq (h : Head) :
    h.lineReset = { h with
      queue := [], timer := none, strikeHigh := false, retryUsed := false, disablePending := false
      state := if h.state = .disabled ∨ h.disablePending = true then .disabled else .idle } := by
  unfold Head.lineReset
  simp only [Bool.or_eq_true, decide_eq_true_eq]

theorem Ccu.lineReset_eq (c : Ccu) :
    c.lineReset = if c.committing then { c with promotionPending := true } else { c with
      store := { c.store with lockCell := some ⟨false, c.lock.locked || c.lock.lockNext⟩ }
      promotionPending := false } := rfl

/-- Settles O52: LINE_RESET by the line state, block by block. -/
theorem lineResetResetsEveryBlock : Obligations.LineResetResetsEveryBlock := by
  intro d
  refine ⟨fun notIdle notPaused => if_neg (by simp [notIdle, notPaused]), fun rests => ?_⟩
  have performed : d.performWaiting .lineReset = (.ok (bytesOf 1 d.hev.held), d.resetLine) := if_pos rests
  rw [performed]
  refine ⟨rfl, Device.resetLine_touches d, rfl, rfl, rfl, rfl, ?_, rfl, rfl, rfl⟩
  show { d.sth with heads := d.sth.heads.map Head.lineReset } = _
  rw [funext Head.lineReset_eq]

/-! ### The lowest bit of a mask (R222) -/

section
variable {mask : Word32} {p : Nat → Bool}

theorem lowestBit_filter (mask : Word32) (p : Nat → Bool) :
    lowestBit mask ((List.range 32).filter p) = (List.range 32).find? fun i => decide (p i = true ∧ mask.getLsbD i = true) :=
  List.find?_filter

theorem lowestBit_of_lowest {i : Nat} (inside : i < 32) (bad : p i = true) (bit : mask.getLsbD i = true)
    (before : ∀ j < i, p j = true → mask.getLsbD j = false) : lowestBit mask ((List.range 32).filter p) = some i := by
  rw [lowestBit_filter, List.find?_range_eq_some]
  refine ⟨by simp [bad, bit], List.mem_range.2 inside, fun j earlier => ?_⟩
  cases there : p j with
  | false => rfl
  | true => simp [before j earlier there]

theorem lowestBit_of_none (clear : ∀ i < 32, p i = true → mask.getLsbD i = false) :
    lowestBit mask ((List.range 32).filter p) = none := by
  rw [lowestBit_filter, List.find?_eq_none]
  intro i inside
  cases there : p i with
  | false => simp
  | true => simp [clear i (List.mem_range.1 inside) there]

end

theorem maskForbidden_eq : maskForbidden = (List.range 32).filter fun i => decide (27 ≤ i) := by decide

/-- The bits of the control word that name no field, and under CLEAR_FLAGS those of the rate. -/
theorem controlForbidden_iff {set : Bool} {i : Nat} :
    ((3 ≤ i && i ≤ 7) || (15 ≤ i) || (!set && 8 ≤ i && i ≤ 14)) = true ↔
      (3 ≤ i ∧ i ≤ 7) ∨ 15 ≤ i ∨ (set = false ∧ 8 ≤ i ∧ i ≤ 14) := by
  cases set <;> simp [or_assoc]

/-! ### The control word -/

section
variable {set : Bool} {mask : Word32} {d : Device}

theorem Device.changeControl_of_bit {i : Nat} (bit : lowestBit mask (controlForbidden set) = some i) :
    d.changeControl set mask = (⟨.badValue, 256 * i, []⟩, d) := by
  unfold Device.changeControl
  rw [bit]
  rfl

section
variable (clear : lowestBit mask (controlForbidden set) = none)
include clear

theorem Device.changeControl_of_rate (bad : 64 < (d.lct.control.change set mask).rate) :
    d.changeControl set mask = (⟨.badValue, 2048, []⟩, d) := by
  unfold Device.changeControl
  rw [clear]
  exact if_pos (by simp [bad])

section
variable (low : 1 ≤ (d.lct.control.change set mask).rate) (high : (d.lct.control.change set mask).rate ≤ 64)
include low high

theorem Device.changeControl_of_rate_legal :
    d.changeControl set mask =
      if (d.lct.control.change set mask).freeRun ≠ d.lct.control.freeRun ∧ d.lct.lineState ≠ .idle then
        (.refuse .wrongState reasonLineState, d)
      else (.ok ([0] ++ bytesOf 4 (d.lct.control.change set mask).word),
        { d with lct := { d.lct with control := d.lct.control.change set mask } }) := by
  unfold Device.changeControl
  rw [clear]
  exact if_neg (by simp; omega)

end

end

end

/-- The rate of the control word after a request. -/
theorem Control.change_rate (set : Bool) (mask : Word32) (c : Control) :
    (c.change set mask).rate =
      if set = true ∧ (mask.extractLsb' 8 7).toNat ≠ 0 then (mask.extractLsb' 8 7).toNat else c.rate := by
  simp [Control.change]

theorem Control.change_eq (set : Bool) (mask : Word32) (c : Control) :
    c.change set mask =
      ⟨if mask.getLsbD 0 then set else c.fwdLines, if mask.getLsbD 1 then set else c.autoResume,
        if mask.getLsbD 2 then set else c.freeRun,
        if set = true ∧ (mask.extractLsb' 8 7).toNat ≠ 0 then (mask.extractLsb' 8 7).toNat else c.rate⟩ := by
  rw [← Control.change_rate]
  rfl

/-! ### The event mask -/

theorem Lct.changeMask_getElem? (set : Bool) (mask : Word32) (l : Lct) (i : Nat) :
    (l.changeMask set mask).mask[i]? = l.mask[i]?.map fun old => if mask.getLsbD i then set else old := by
  simp only [Lct.changeMask, List.getElem?_map, getElem?_withIndex, Option.map_map, Nat.zero_add]
  rfl

theorem Device.askEventPlace_mask (d : Device) : d.askEventPlace.lct.mask = d.lct.mask := by
  by_cases reports : (∃ i, d.lct.reports i) ∧ d.reportRoom = true
  · rw [Device.askEventPlace_of_reported reports.1 reports.2]
    have placed : (Device.placeReport d.eventFrame { d with lct := { d.lct with latches := d.lct.latchesAfterReport } }).lct =
        { d.lct with latches := d.lct.latchesAfterReport } := Device.placeReport_touches _ _ .lct (by decide)
    rw [placed]
  · rw [Device.askEventPlace_of_not_reported]
    rw [not_and_or, Bool.not_eq_true] at reports
    exact reports

section
variable {set : Bool} {mask : Word32} {d : Device}

theorem Device.changeEventMask_of_bit {i : Nat} (bit : lowestBit mask maskForbidden = some i) :
    d.changeEventMask set mask = (⟨.badValue, 256 * i + 1, []⟩, d) := by
  unfold Device.changeEventMask
  rw [bit]
  rfl

theorem Device.changeEventMask_of_clear (clear : lowestBit mask maskForbidden = none) :
    let v : Device := { d with lct := d.lct.changeMask set mask }
    let w : Device := if set then v else v.askEventPlace
    d.changeEventMask set mask = (.ok ([1] ++ bytesOf 4 (bitsOf v.lct.mask)), w) := by
  intro v w
  have same : w.lct.mask = v.lct.mask := by
    show (if set then v else v.askEventPlace).lct.mask = _
    cases set with
    | true => rfl
    | false => exact v.askEventPlace_mask
  unfold Device.changeEventMask
  rw [clear, ← same]
  rfl

end

/-! ### The rows of the two words -/

theorem exec_flagsControl (set : Bool) (selector : Byte) (mask : Word32) (s : State) :
    exec (if set then .setFlagsControl selector mask else .clearFlagsControl selector mask) s =
      s.request (if set then kindSetFlags else kindClearFlags) (Device.changeFlags set selector mask) := by
  cases set <;> rfl

theorem exec_flagsEventMask (set : Bool) (mask : Word32) (s : State) :
    exec (if set then .setFlagsEventMask mask else .clearFlagsEventMask mask) s =
      s.request (if set then kindSetFlags else kindClearFlags) (Device.changeFlags set 1 mask) := by
  cases set <;> rfl

theorem Device.changeFlags_of_unknown {selector : Byte} (set : Bool) (mask : Word32) (d : Device) (notControl : selector ≠ 0)
    (notMask : selector ≠ 1) : d.changeFlags set selector mask = (⟨.badValue, selector.toNat, []⟩, d) := by
  refine ((if_neg notControl).trans (if_neg notMask)).trans ?_
  simp [badField, detailOf, Reply.refuse]

/-- Settles O48: SET_FLAGS and CLEAR_FLAGS by the selector, the mask's bits and the fields they name. -/
theorem flagRequestsChangeTheirWord : Obligations.FlagRequestsChangeTheirWord := by
  intro set selector mask s ready notMask d kind c row maskRow refused noField rate flag
  have controlRow := exec_flagsControl set selector mask s
  have eventRow := exec_flagsEventMask set mask s
  refine ⟨fun other => ?_, fun i inside bad bit before control => ?_, fun clear control low high => ?_,
    fun i from' inside bit before => ?_, fun clear => ?_⟩
  · exact exec_of_request ready controlRow (Device.changeFlags_of_unknown set mask d other notMask)
  · subst control
    refine exec_of_request ready controlRow (Device.changeControl_of_bit (lowestBit_of_lowest inside ?_ bit fun j earlier at' => ?_))
    · exact controlForbidden_iff.2 bad
    · exact before j earlier (controlForbidden_iff.1 at')
  · subst control
    have none : lowestBit mask (controlForbidden set) = none :=
      lowestBit_of_none fun i inside at' => clear i inside (controlForbidden_iff.1 at')
    have next := c.change_rate set mask
    refine ⟨fun sets tooHigh => ?_, fun legal => ?_⟩
    · refine exec_of_request ready controlRow (Device.changeControl_of_rate (d := d) none ?_)
      show 64 < (c.change set mask).rate
      rw [next, if_pos ⟨sets, by omega⟩]
      exact tooHigh
    · have bounds : 1 ≤ (c.change set mask).rate ∧ (c.change set mask).rate ≤ 64 := by
        rw [next]
        split
        · next given => exact ⟨Nat.one_le_iff_ne_zero.2 given.2, legal.resolve_left (by simp [given.1])⟩
        · exact ⟨low, high⟩
      have changed := Device.changeControl_of_rate_legal (d := d) none bounds.1 bounds.2
      refine ⟨fun other busy => exec_of_request ready controlRow (changed.trans (if_pos ⟨other, busy⟩)), fun free => ?_⟩
      rw [Control.change_eq] at changed
      refine exec_of_request ready controlRow (changed.trans (if_neg ?_))
      rintro ⟨other, busy⟩
      exact free.elim other busy
  · have bad := lowestBit_of_lowest (p := fun j => decide (27 ≤ j)) inside (decide_eq_true from') bit
      fun j earlier at' => before j (of_decide_eq_true at') earlier
    rw [← maskForbidden_eq] at bad
    exact exec_of_request ready eventRow (Device.changeEventMask_of_bit bad)
  · have none := lowestBit_of_none (p := fun j => decide (27 ≤ j)) fun j inside at' => clear j (of_decide_eq_true at') inside
    rw [← maskForbidden_eq] at none
    refine ⟨{ d with lct := d.lct.changeMask set mask }, _, Lct.changeMask_getElem? set mask d.lct, rfl, rfl, ?_⟩
    exact exec_of_request ready eventRow (Device.changeEventMask_of_clear none)

end Sys2Proof.Machine
end

section
/-!
PROOF. The requests on the heads (R126, R134, R135, R221).
-/

namespace Sys2Proof.Machine

/-! ### Numbers out of range -/

section
variable {head : Byte} (d : Device) (out : 4 ≤ head.toNat)
include out

theorem Device.requestHeadOff_of_out : d.requestHeadOff head = (⟨.badValue, 256 + head.toNat, []⟩, d) := by
  simp only [Device.requestHeadOff, numberOf_of_out out]
  rfl

theorem Device.requestHeadOn_of_out (on : Byte) : d.requestHeadOn head on = (⟨.badValue, 256 + head.toNat, []⟩, d) := by
  simp only [Device.requestHeadOn, numberOf_of_out out]
  rfl

theorem Device.requestClearStall_of_out : d.requestClearStall head = (⟨.badValue, 256 + head.toNat, []⟩, d) := by
  simp only [Device.requestClearStall, numberOf_of_out out]
  rfl

end

/-! ### A head switched off and on (R134, R135) -/

/-- The answer of a HEAD_ENABLE: the head's number and state, the entries cancelled, and whether a disable is pending. -/
def headAnswer (head : Byte) (state : HeadState) (cancelled : Nat) (pending : Bool) : Reply :=
  ⟨.ok, 0, [head, state.code] ++ bytesOf 1 cancelled ++ [indication pending]⟩

theorem ofNat_of_named {head : Byte} {n : Fin 4} (named : head.toNat = n.val) : BitVec.ofNat 8 n.val = head := by
  rw [← named, BitVec.ofNat_toNat, BitVec.setWidth_eq]

theorem Device.headEnableReply_of_head {head : Byte} {n : Fin 4} {d : Device} {h : Head} (named : head.toNat = n.val)
    (stands : d.head n = h) (cancelled : Nat) : d.headEnableReply n cancelled = headAnswer head h.state cancelled h.disablePending := by
  unfold Device.headEnableReply headAnswer
  rw [stands, ofNat_of_named named]
  rfl

section
variable {head : Byte} {n : Fin 4} {d : Device} (named : head.toNat = n.val)
include named

theorem Device.requestHeadOff_of_disabled (off : (d.head n).state = .disabled) :
    d.requestHeadOff head = (headAnswer head .disabled 0 (d.head n).disablePending, d) := by
  have stays : d.headOff n = d := by simp only [Device.headOff, off]
  have answer := Device.headEnableReply_of_head named (d := d) rfl 0
  rw [off] at answer
  simp only [Device.requestHeadOff, numberOf_of_val named, stays, Head.cancelledByOff, off, answer]

theorem Device.requestHeadOff_of_striking (four : d.sth.heads.length = 4) (strikes : (d.head n).state = .striking) :
    d.requestHeadOff head =
      (headAnswer head .striking 0 true, d.setHead n { d.head n with disablePending := true }) := by
  have held : d.headOff n = d.setHead n { d.head n with disablePending := true } := by simp only [Device.headOff, strikes]
  have answer := Device.headEnableReply_of_head named (Device.head_setHead (n := n) (h := { d.head n with disablePending := true }) four) 0
  dsimp only at answer
  rw [strikes] at answer
  simp only [Device.requestHeadOff, numberOf_of_val named, held, Head.cancelledByOff, strikes, answer]

/-- The head that is disabled at once: every entry is handed over CANCELLED. -/
theorem Device.requestHeadOff_of_other (four : d.sth.heads.length = 4) (on : (d.head n).state ≠ .disabled)
    (quiet : (d.head n).state ≠ .striking) :
    d.requestHeadOff head =
      (headAnswer head .disabled (d.head n).queue.length false,
        (d.disposeAll .cancelled (d.head n).queue).setHead n (d.head n).off) := by
  have present : n.val < d.sth.heads.length := by omega
  have slots : (d.disposeAll .cancelled (d.head n).queue).sth.heads.length = 4 := by rw [Device.disposeAll_sth, four]
  have off : d.headOff n = (d.disposeAll .cancelled (d.head n).queue).setHead n (d.head n).off := by
    rw [← Device.disableHead_eq present]
    unfold Device.headOff
    cases state : (d.head n).state <;> simp_all
  have cancelled : (d.head n).cancelledByOff = (d.head n).queue.length := by
    unfold Head.cancelledByOff
    cases state : (d.head n).state <;> simp_all
  have answer := Device.headEnableReply_of_head named (Device.head_setHead (n := n) (h := (d.head n).off) slots)
    (d.head n).queue.length
  simp only [Device.requestHeadOff, numberOf_of_val named, off, cancelled, answer]
  rfl

/-- The head that is switched on (R135). -/
def Head.on (h : Head) : Head := if h.state = .disabled then { h with state := .idle } else { h with disablePending := false }

omit named in
theorem Device.headOn_eq (n : Fin 4) (d : Device) : d.headOn n = d.setHead n (d.head n).on := by
  unfold Device.headOn Head.on
  by_cases off : (d.head n).state = .disabled
  · simp only [if_pos off]
  · simp only [if_neg off]
    by_cases pending : (d.head n).disablePending = true
    · rw [if_pos pending]
    · have same : ({ d.head n with disablePending := false } : Head) = d.head n := by
        rw [← Bool.eq_false_iff.2 pending]
      rw [if_neg pending, same, Device.setHead_head]

theorem Device.requestHeadOn_of_value {on : Byte} (bad : on ≠ 1) :
    d.requestHeadOn head on = (⟨.badValue, 512 + on.toNat, []⟩, d) := by
  simp only [Device.requestHeadOn, numberOf_of_val named]
  exact if_pos bad

theorem Device.requestHeadOn_of_unfitted (unfitted : (d.headEntry n).enable = false) :
    d.requestHeadOn head 1 = (⟨.badValue, 768 + head.toNat, []⟩, d) := by
  simp only [Device.requestHeadOn, numberOf_of_val named]
  exact (if_neg (by simp)).trans (if_pos (by simp [unfitted]))

theorem Device.requestHeadOn_of_fitted (four : d.sth.heads.length = 4) (fitted : (d.headEntry n).enable = true) :
    d.requestHeadOn head 1 =
      (headAnswer head (d.head n).on.state 0 (d.head n).on.disablePending, d.setHead n (d.head n).on) := by
  have answer := Device.headEnableReply_of_head named (Device.head_setHead (n := n) (h := (d.head n).on) four) 0
  simp only [Device.requestHeadOn, numberOf_of_val named, Device.headOn_eq, answer]
  exact (if_neg (by simp)).trans (if_neg (by simp [fitted]))

theorem Device.requestClearStall_of_head :
    d.requestClearStall head = (⟨.ok, 0, [head, ((d.clearStall n).head n).state.code]⟩, d.clearStall n) := by
  simp only [Device.requestClearStall, numberOf_of_val named]
  rfl

end

/-- Settles O49: HEAD_ENABLE off and on and CLEAR_STALL by the head's number, state and enable. -/
theorem headRequestsSwitchHeads : Obligations.HeadRequestsSwitchHeads := by
  intro head on s ready four d
  refine ⟨fun out => ⟨exec_of_request ready rfl (d.requestHeadOff_of_out out), exec_of_request ready rfl (d.requestHeadOn_of_out out on),
    exec_of_request ready rfl (d.requestClearStall_of_out out)⟩, ?_⟩
  intro n named h answer
  refine ⟨fun off => ?_, fun strikes => ?_, fun notOff quiet => ?_, fun bad => ?_, fun one unfitted => ?_, fun one fitted => ?_,
    fun stalled => ?_, fun runs => ?_⟩
  · exact exec_of_request ready rfl (Device.requestHeadOff_of_disabled (d := d) named off)
  · exact exec_of_request ready rfl (Device.requestHeadOff_of_striking (d := d) named four strikes)
  · refine ⟨_, exec_of_request ready rfl (Device.requestHeadOff_of_other (d := d) named four notOff quiet), ?_, rfl, ?_⟩
    · rw [Device.setHead_sth, Device.setHead_sth, Device.disposeAll_sth]
      rfl
    · exact ((Device.disposeAll_touches _ _ d).comp (Device.setHead_touches _ _ _)).weaken rfl
  · exact exec_of_request ready rfl (Device.requestHeadOn_of_value (d := d) named bad)
  · subst one
    exact exec_of_request ready rfl (Device.requestHeadOn_of_unfitted (d := d) named unfitted)
  · subst one
    exact exec_of_request ready rfl (Device.requestHeadOn_of_fitted (d := d) named four fitted)
  · have cleared : d.clearStall n = (d.setHead n { h with state := .idle }).startSetting n false := if_pos stalled
    refine exec_of_request ready rfl ((Device.requestClearStall_of_head (d := d) named).trans ?_)
    rw [cleared]
  · have stands : d.clearStall n = d := if_neg runs
    refine exec_of_request ready rfl ((Device.requestClearStall_of_head (d := d) named).trans ?_)
    rw [stands]
    rfl

end Sys2Proof.Machine
end

section
/-!
PROOF. Loads by their checks: the first check that fails, fields of a load's data, and the loads of the verified set (R177, R179, R180,
R218).
-/

namespace Sys2Proof.Machine

/-! ### The first check that fails -/

theorem firstBad_of_all {checks : List (Bool × Nat)} (pass : ∀ c ∈ checks, c.1 = true) (rest : List (Bool × Nat)) :
    firstBad (checks ++ rest) = firstBad rest := by
  induction checks with
  | nil => rfl
  | cons c checks ih =>
    obtain ⟨first, others⟩ := List.forall_mem_cons.1 pass
    exact (if_pos first).trans (ih others)

theorem firstBad_of_first {front back : List (Bool × Nat)} {c : Bool × Nat} (pass : ∀ y ∈ front, y.1 = true) (fails : c.1 = false) :
    firstBad (front ++ c :: back) = some c.2 :=
  (firstBad_of_all pass _).trans (if_neg (by simp [fails]))

/-- The first check that fails, by its place in the list. -/
theorem firstBad_of_getElem {checks : List (Bool × Nat)} {k detail : Nat} (fails : checks[k]? = some (false, detail))
    (before : ∀ j < k, ∀ c, checks[j]? = some c → c.1 = true) (rest : List (Bool × Nat)) :
    firstBad (checks ++ rest) = some detail := by
  obtain ⟨inside, there⟩ := List.getElem?_eq_some_iff.1 fails
  have parts : checks = checks.take k ++ (false, detail) :: checks.drop (k + 1) := by
    rw [← there, List.getElem_cons_drop, List.take_append_drop]
  rw [parts, List.append_assoc]
  refine firstBad_of_first (fun c held => ?_) rfl
  obtain ⟨j, there⟩ := List.mem_iff_getElem?.1 held
  by_cases earlier : j < k
  · rw [List.getElem?_take_of_lt earlier] at there
    exact before j earlier c there
  · rw [List.getElem?_eq_none (by simp; omega)] at there
    exact nomatch there

/-! ### Fields -/

theorem natOf_lt (b : List Byte) : natOf b < 256 ^ b.length := by
  have value := natOf_bytesOf b.length (natOf b)
  rw [bytesOf_natOf] at value
  rw [value]
  exact Nat.mod_lt _ (by positivity)

theorem fieldAt_lt (o n : Nat) (b : List Byte) : fieldAt o n b < 256 ^ n :=
  (natOf_lt _).trans_le (Nat.pow_le_pow_right (by decide) (List.length_take_le _ _))

theorem fieldAt_drop (o n m : Nat) (b : List Byte) : fieldAt o n (b.drop m) = fieldAt (m + o) n b := by
  rw [fieldAt, fieldAt, List.drop_drop]

theorem wordsOf_getElem? {k : Nat} : ∀ {n : Nat} {b : List Byte}, k < n → (wordsOf n b)[k]? = some (fieldAt (2 * k) 2 b) := by
  induction k with
  | zero =>
    intro n b inside
    obtain ⟨m, rfl⟩ := Nat.exists_eq_succ_of_ne_zero inside.ne'
    rfl
  | succ k ih =>
    intro n b inside
    obtain ⟨m, rfl⟩ := Nat.exists_eq_succ_of_ne_zero (Nat.ne_zero_of_lt inside)
    rw [wordsOf, List.getElem?_cons_succ, ih (Nat.lt_of_succ_lt_succ inside), fieldAt_drop]
    congr 2
    omega

theorem wordsOf_getD {k n : Nat} {b : List Byte} (inside : k < n) : (wordsOf n b).getD k 0 = fieldAt (2 * k) 2 b := by
  rw [List.getD_eq_getElem?_getD, wordsOf_getElem? inside]
  rfl

/-! ### The words of a segment (R177, R179) -/

/-- A word of a segment that holds none of its values, by its place in the segment. -/
def CalTable.badWord (t : CalTable) (k w : Nat) : Prop :=
  match t with
  | .widths => w < 500 ∨ 4000 < w
  | .mask => 2 < w
  | .conditioning => match k with
    | 0 => 1023 < w
    | 2 => w < 1 ∨ 4095 < w
    | 3 | 6 => 1 < w
    | 4 | 5 => 15 < w
    | _ => False

/-- What BAD_VALUE names of a word. -/
def CalTable.named (t : CalTable) (seg k : Nat) : Nat :=
  match t with
  | .widths => 128 * seg + k
  | .mask => 800 * seg + k
  | .conditioning => 256 * (k + 1)

theorem wordLegal_iff {t : CalTable} {seg k w : Nat} (inside : seg < t.segments) (place : k < t.words seg) (range : w < 65536) :
    wordLegal (t.start seg + k + 1) w = true ↔ ¬ t.badWord k w := by
  have before := (CalTable.segment_before inside).1
  cases t with
  | widths =>
    simp only [CalTable.finish, CalTable.start, CalTable.badWord] at *
    have low : 128 * seg + k + 1 ≤ 1600 := by omega
    simp [wordLegal, low]
  | mask =>
    simp only [CalTable.finish, CalTable.start, CalTable.badWord] at *
    have above : ¬ 1600 + 800 * seg + k + 1 ≤ 1600 := by omega
    have low : 1600 + 800 * seg + k + 1 ≤ 3200 := by omega
    simp [wordLegal, above, low]
  | conditioning =>
    simp only [CalTable.words, CalTable.start] at *
    interval_cases k <;> simp [wordLegal, CalTable.badWord] <;> omega

theorem wordChecks_getElem? (t : CalTable) (start : Nat) :
    ∀ (k : Nat) (words : List Nat) (i : Nat), (wordChecks t start k words)[i]? =
      words[i]?.map fun w => (wordLegal (start + (k + i) + 1) w, match t with
        | .widths => start + (k + i)
        | .mask => start + (k + i) - 1600
        | .conditioning => detailOf (k + i + 1) 0)
  | _, [], _ => rfl
  | k, w :: rest, 0 => by cases t <;> rfl
  | k, w :: rest, i + 1 => by
    have shift : k + 1 + i = k + (i + 1) := by omega
    show (wordChecks t start (k + 1) rest)[i]? = rest[i]?.map _
    rw [wordChecks_getElem? t start (k + 1) rest i, shift]

/-- The checks of a segment's words, each with what it names. -/
theorem segmentChecks_getElem? {t : CalTable} {seg : Nat} (words : List Nat) (i : Nat) :
    (wordChecks t (t.start seg) 0 words)[i]? =
      words[i]?.map fun w => (wordLegal (t.start seg + i + 1) w, t.named seg i) := by
  rw [wordChecks_getElem?, Nat.zero_add]
  cases t with
  | widths => rfl
  | mask =>
    have less : 1600 + 800 * seg + i - 1600 = 800 * seg + i := by omega
    simp only [CalTable.named, CalTable.start, less]
  | conditioning => rfl

/-! ### The refusal of a segment (R180) -/

section
variable {t : CalTable} {seg : Nat} {data : List Byte} (inside : seg < t.segments)
include inside

theorem segmentRefusal_of_word {k : Nat} (place : k < t.words seg) (bad : t.badWord k (fieldAt (2 * k) 2 data))
    (before : ∀ j < k, ¬ t.badWord j (fieldAt (2 * j) 2 data)) :
    segmentRefusal t seg (wordsOf (t.words seg) data) = some (t.named seg k) := by
  refine firstBad_of_getElem (k := k) ?_ (fun j earlier c there => ?_) _
  · rw [segmentChecks_getElem?, wordsOf_getElem? place]
    have fails : wordLegal (t.start seg + k + 1) (fieldAt (2 * k) 2 data) = false :=
      Bool.eq_false_iff.2 fun legal => (wordLegal_iff inside place (fieldAt_lt _ 2 _)).1 legal bad
    rw [Option.map_some, fails]
  · have place' : j < t.words seg := earlier.trans place
    rw [segmentChecks_getElem?, wordsOf_getElem? place'] at there
    obtain rfl := Option.some.inj there
    exact (wordLegal_iff inside place' (fieldAt_lt _ 2 _)).2 (before j earlier)

theorem segmentRefusal_of_words (legal : ∀ k < t.words seg, ¬ t.badWord k (fieldAt (2 * k) 2 data)) :
    segmentRefusal t seg (wordsOf (t.words seg) data) =
      firstBad (if t = .conditioning then [pitchCheck (wordsOf (t.words seg) data)] else []) := by
  refine firstBad_of_all (fun c held => ?_) _
  obtain ⟨i, there⟩ := List.mem_iff_getElem?.1 held
  rw [segmentChecks_getElem?] at there
  obtain ⟨w, word, rfl⟩ := Option.map_eq_some_iff.1 there
  have place : i < t.words seg := by
    have := (List.getElem?_eq_some_iff.1 word).1
    rwa [wordsOf_length] at this
  rw [wordsOf_getElem? place] at word
  obtain rfl := Option.some.inj word
  exact (wordLegal_iff inside place (fieldAt_lt _ 2 _)).2 (legal i place)

end

/-- The pitch that the words of CONDITIONING spell. -/
theorem pitchCheck_eq (data : List Byte) :
    let pitch := fieldAt 4 2 data * (65536 * fieldAt 0 2 data + fieldAt 2 2 data)
    pitchCheck (wordsOf 7 data) = (decide (32768000 ≤ pitch) && decide (pitch ≤ 1310720000), 768) := by
  intro pitch
  unfold pitchCheck
  rw [wordsOf_getD (by decide), wordsOf_getD (by decide), wordsOf_getD (by decide), Nat.mul_comm (fieldAt (2 * 0) 2 data)]
  rfl

/-! ### A load of the verified set by its tests (R180) -/

theorem CalTable.exec_loadRow (t : CalTable) (seg : Byte) (data : List Byte) (s : State) :
    exec (t.loadRow seg data) s = s.request kindLoad (Device.loadCal t seg data) := by cases t <;> rfl

section
variable {t : CalTable} {seg : Byte} {data : List Byte} {d : Device}

theorem Device.loadCal_of_notIdle (busy : d.lct.lineState ≠ .idle) : d.loadCal t seg data = (⟨.wrongState, 1, []⟩, d) := if_pos busy

section
variable (idle : d.lct.lineState = .idle)
include idle

theorem Device.loadCal_of_locked (locked : d.ccu.lock.locked = true) : d.loadCal t seg data = (⟨.locked, 0, []⟩, d) :=
  (if_neg (not_not.2 idle)).trans (if_pos locked)

section
variable (unlocked : d.ccu.lock.locked = false)
include unlocked

theorem Device.loadCal_of_committing (flight : d.ccu.committing = true) : d.loadCal t seg data = (⟨.notNow, 0, []⟩, d) :=
  ((if_neg (not_not.2 idle)).trans (if_neg (by simp [unlocked]))).trans (if_pos flight)

section
variable (rests : d.ccu.committing = false)
include rests

theorem Device.loadCal_of_segment (out : t.segments ≤ seg.toNat) : d.loadCal t seg data = (⟨.badSegment, 0, []⟩, d) :=
  (((if_neg (not_not.2 idle)).trans (if_neg (by simp [unlocked]))).trans (if_neg (by simp [rests]))).trans (if_pos out)

section
variable (inside : seg.toNat < t.segments)
include inside

theorem Device.loadCal_of_length (other : data.length ≠ 2 * t.words seg.toNat) :
    d.loadCal t seg data = (⟨.badFrame, 0, []⟩, d) :=
  ((((if_neg (not_not.2 idle)).trans (if_neg (by simp [unlocked]))).trans (if_neg (by simp [rests]))).trans
    (if_neg (Nat.not_le.2 inside))).trans (if_pos other)

theorem Device.loadCal_of_whole (whole : data.length = 2 * t.words seg.toNat) :
    d.loadCal t seg data =
      match segmentRefusal t seg.toNat (wordsOf (t.words seg.toNat) data) with
      | some detail => (.refuse .badValue detail, d)
      | none =>
        let c := d.ccu.loadSegment t seg.toNat (wordsOf (t.words seg.toNat) data)
        (.ok ([t.code, seg] ++ bytesOf 4 (checkSum c.working).toNat), { d with ccu := c }) :=
  ((((if_neg (not_not.2 idle)).trans (if_neg (by simp [unlocked]))).trans (if_neg (by simp [rests]))).trans
    (if_neg (Nat.not_le.2 inside))).trans (if_neg (not_not.2 whole))

end

end

end

end

end

/-- A segment is read back from where it is written. -/
theorem segmentWords_writeWords {t : CalTable} {seg : Nat} {words : List Nat} {set : List (Option Nat)}
    (room : t.start seg ≤ set.length) (size : words.length = t.words seg) :
    segmentWords t seg (writeWords (t.start seg) words set) = words.map some := by
  have front : (set.take (t.start seg)).length = t.start seg := by simp [room]
  unfold segmentWords writeWords
  rw [List.append_assoc, List.drop_append_of_le_length (by omega), List.drop_of_length_le (by omega), List.nil_append, ← size]
  exact List.take_left' (by simp)

/-- Settles O44: a LOAD of WIDTHS, MASK or CONDITIONING by the tests of R180, and its refusal by the words of its data. -/
theorem calibrationLoadsWriteTheWorkingCopy : Obligations.CalibrationLoadsWriteTheWorkingCopy := by
  intro t seg data s ready d c words refused
  have row := t.exec_loadRow seg data s
  refine ⟨fun busy => exec_of_request ready row (Device.loadCal_of_notIdle (d := d) busy),
    fun idle locked => exec_of_request ready row (Device.loadCal_of_locked (d := d) idle locked),
    fun idle unlocked flight => exec_of_request ready row (Device.loadCal_of_committing (d := d) idle unlocked flight),
    fun idle unlocked rests => ⟨fun out => exec_of_request ready row (Device.loadCal_of_segment (d := d) idle unlocked rests out),
      fun inside => ⟨fun other => exec_of_request ready row (Device.loadCal_of_length (d := d) idle unlocked rests inside other),
        fun whole => ?_⟩, fun inside whole => ?_⟩⟩
  · have checked := Device.loadCal_of_whole (d := d) idle unlocked rests inside whole
    refine ⟨fun detail bad => exec_of_request ready row (by rw [checked, bad]; rfl), fun legal => ?_⟩
    have size : words.length = t.words seg.toNat := wordsOf_length _ _
    have written : (c.loadSegment t seg.toNat words).working =
        c.working.take (t.start seg.toNat) ++ words.map some ++ c.working.drop (t.start seg.toNat + t.words seg.toNat) := by
      rw [← size]
      rfl
    intro working
    refine ⟨exec_of_request ready row ?_, segmentRefusal_legal legal, fun length => ?_⟩
    · rw [checked, legal]
      show (_, _) = (_, _)
      rw [show working = (c.loadSegment t seg.toNat words).working from written.symm]
      rfl
    · have segment := CalTable.segment_inside inside
      rw [show working = writeWords (t.start seg.toNat) words c.working from written.symm]
      exact segmentWords_writeWords (by omega) size
  · intro bad named pitch
    refine ⟨fun k place fails before => segmentRefusal_of_word inside place fails before, fun legal => ?_⟩
    have rest := segmentRefusal_of_words inside legal
    refine ⟨fun conditioning out => ?_, fun within => ?_⟩
    · subst conditioning
      refine rest.trans ?_
      rw [if_pos rfl]
      show firstBad [pitchCheck (wordsOf 7 data)] = _
      rw [pitchCheck_eq]
      refine if_neg fun both => ?_
      obtain ⟨low, high⟩ := Bool.and_eq_true_iff.1 both
      exact out.elim (Nat.not_lt.2 (of_decide_eq_true low)) (Nat.not_lt.2 (of_decide_eq_true high))
    · refine rest.trans ?_
      by_cases conditioning : t = .conditioning
      · obtain ⟨low, high⟩ := within conditioning
        subst conditioning
        rw [if_pos rfl]
        show firstBad [pitchCheck (wordsOf 7 data)] = _
        rw [pitchCheck_eq]
        exact if_pos (by simpa using ⟨low, high⟩)
      · rw [if_neg conditioning]
        rfl

end Sys2Proof.Machine
end

section
/-!
PROOF. A load of TERMS (R97, R98, R102 to R106, R150): its tests in order, its table's checks by their places, and the packs it closes.
-/

namespace Sys2Proof.Machine

/-! ### Checks by their places -/

section
variable {α : Type} {check : α → Bool} {detail : α → Nat} {bad : α → Prop} (sound : ∀ x, check x = true ↔ ¬ bad x)
include sound

theorem firstBad_of_place {front back : List α} {x : α} (fails : bad x) (before : ∀ y ∈ front, ¬ bad y) (rest : List (Bool × Nat)) :
    firstBad ((front ++ x :: back).map (fun y => (check y, detail y)) ++ rest) = some (detail x) := by
  rw [List.map_append, List.map_cons, List.append_assoc]
  refine firstBad_of_first (fun c held => ?_) (Bool.eq_false_iff.2 fun pass => (sound x).1 pass fails)
  obtain ⟨y, there, rfl⟩ := List.mem_map.1 held
  exact (sound y).2 (before y there)

theorem firstBad_of_places {places : List α} (legal : ∀ x ∈ places, ¬ bad x) (rest : List (Bool × Nat)) :
    firstBad (places.map (fun y => (check y, detail y)) ++ rest) = firstBad rest := by
  refine firstBad_of_all (fun c held => ?_) _
  obtain ⟨y, there, rfl⟩ := List.mem_map.1 held
  exact (sound y).2 (legal y there)

end

/-! ### The fields of a TERMS table (R97, R98, R103) -/

/-- A field of a TERMS table out of its range, by its place and its class. -/
def termsBad (data : List Byte) (x : Nat × Nat) : Prop :=
  match x.1 with
  | 1 => 2 < fieldAt 0 1 data
  | 2 => 3 < fieldAt 1 1 data
  | 3 => 2 < fieldAt 2 1 data
  | 7 => fieldAt 9 1 data < 1 ∨ 8 < fieldAt 9 1 data
  | 8 => 6400000 < fieldAt 10 4 data
  | 9 => 2 < fieldAt 3 1 data
  | 10 => 302978 < fieldAt (14 + 12 * x.2) 4 data
  | 11 => 302978 < fieldAt (18 + 12 * x.2) 4 data
  | 12 => 15 < fieldAt (22 + 12 * x.2) 1 data
  | 13 => 15 < fieldAt (23 + 12 * x.2) 1 data
  | 14 => 3 < fieldAt (24 + 12 * x.2) 1 data ∧ fieldAt (24 + 12 * x.2) 1 data ≠ 255
  | 15 => fieldAt (25 + 12 * x.2) 1 data < 1 ∨ 99 < fieldAt (25 + 12 * x.2) 1 data
  | _ => False

/-- The check of a field of a TERMS table, by its place and its class. -/
def termsCheck (b : List Byte) (x : Nat × Nat) : Bool :=
  match x.1 with
  | 1 => (saleUnitOf (fieldAt 0 1 b)).isSome
  | 2 => (resolutionOf (fieldAt 1 1 b)).isSome
  | 3 => (roundingOf (fieldAt 2 1 b)).isSome
  | 7 => 1 ≤ fieldAt 9 1 b && fieldAt 9 1 b ≤ 8
  | 8 => fieldAt 10 4 b ≤ 6400000
  | 9 => (suspectModeOf (fieldAt 3 1 b)).isSome
  | 10 => fieldAt (classOffset x.2 0) 4 b ≤ maxSteps
  | 11 => fieldAt (classOffset x.2 4) 4 b ≤ maxSteps
  | 12 => fieldAt (classOffset x.2 8) 1 b ≤ 15
  | 13 => fieldAt (classOffset x.2 9) 1 b ≤ 15
  | 14 => (packSlotOf (fieldAt (classOffset x.2 10) 1 b)).isSome
  | 15 => 1 ≤ fieldAt (classOffset x.2 11) 1 b && fieldAt (classOffset x.2 11) 1 b ≤ 99
  | _ => true

/-- The places of a TERMS table: the nine terms, then the six fields of each class. -/
def termsPlaces : List (Nat × Nat) :=
  [1, 2, 3, 4, 5, 6, 7, 8, 9].map (fun p => (p, 0)) ++ (List.range 8).flatMap fun k => [10, 11, 12, 13, 14, 15].map fun p => (p, k)

theorem saleUnitOf_isSome (v : Nat) : (saleUnitOf v).isSome = true ↔ ¬ 2 < v := by
  match v with
  | 0 | 1 | 2 => decide
  | v + 3 => simp [saleUnitOf]

theorem resolutionOf_isSome (v : Nat) : (resolutionOf v).isSome = true ↔ ¬ 3 < v := by
  match v with
  | 0 | 1 | 2 | 3 => decide
  | v + 4 => simp [resolutionOf]

theorem roundingOf_isSome (v : Nat) : (roundingOf v).isSome = true ↔ ¬ 2 < v := by
  match v with
  | 0 | 1 | 2 => decide
  | v + 3 => simp [roundingOf]

theorem suspectModeOf_isSome (v : Nat) : (suspectModeOf v).isSome = true ↔ ¬ 2 < v := by
  match v with
  | 0 | 1 | 2 => decide
  | v + 3 => simp [suspectModeOf]

theorem packSlotOf_isSome (v : Nat) : (packSlotOf v).isSome = true ↔ ¬ (3 < v ∧ v ≠ 255) := by
  unfold packSlotOf
  split <;> simp
  grind

theorem termsCheck_iff (b : List Byte) (x : Nat × Nat) : termsCheck b x = true ↔ ¬ termsBad b x := by
  obtain ⟨p, k⟩ := x
  have at' (o : Nat) : classOffset k o = 14 + o + 12 * k := by
    unfold classOffset
    omega
  unfold termsCheck termsBad
  dsimp only
  split
  · exact saleUnitOf_isSome _
  · exact resolutionOf_isSome _
  · exact roundingOf_isSome _
  · simp; omega
  · simp
  · exact suspectModeOf_isSome _
  all_goals try rw [at']
  · exact decide_eq_true_iff.trans Nat.not_lt.symm
  · exact decide_eq_true_iff.trans Nat.not_lt.symm
  · simp
  · simp
  · exact packSlotOf_isSome _
  · simp; omega
  · simp

/-- The checks of a TERMS table are those of its places; the three that fill their fields never fail. -/
theorem termsChecks_places (b : List Byte) (rest : List (Bool × Nat)) :
    firstBad (termsChecks b ++ rest) = firstBad (termsPlaces.map (fun x => (termsCheck b x, 256 * x.1 + x.2)) ++ rest) := by
  have classes : (List.range 8).flatMap (classChecks b) =
      ((List.range 8).flatMap fun k => [10, 11, 12, 13, 14, 15].map fun p => (p, k)).map
        fun x => (termsCheck b x, 256 * x.1 + x.2) := by
    rw [List.map_flatMap]
    rfl
  unfold termsChecks termsPlaces
  rw [classes, List.map_append]
  rfl

/-! ### The tests over the whole table (R104) -/

theorem fauPerStep_isSome : ∀ u ≤ 2, ∀ r ≤ 3,
    (fauPerStep ((saleUnitOf u).getD .ft2) ((resolutionOf r).getD .whole)).isSome = true ↔
      (u, r) ∈ [(0, 0), (0, 1), (0, 2), (0, 3), (1, 0), (1, 2), (2, 2), (2, 3)] := by decide

theorem targetChecks_getElem? :
    ∀ (i : Nat) (lower classes : List TermClass) (k : Nat), (targetChecks i lower classes)[k]? =
      classes[k]?.map fun c => (targetAgrees (lower ++ classes.take k) c, detailOf 15 (i + k))
  | _, _, [], _ => rfl
  | i, lower, c :: rest, 0 => by simp [targetChecks]
  | i, lower, c :: rest, k + 1 => by
    rw [targetChecks, List.getElem?_cons_succ, targetChecks_getElem? (i + 1) (lower ++ [c]) rest k, List.getElem?_cons_succ,
      List.take_succ_cons, List.append_assoc, Nat.add_assoc, Nat.add_comm 1]
    rfl

/-- A class names a pack slot whose target a class before it has otherwise (R104). -/
def termsDiffers (data : List Byte) (k : Nat) : Prop :=
  fieldAt (24 + 12 * k) 1 data ≠ 255 ∧
    ∃ j < k, fieldAt (24 + 12 * j) 1 data = fieldAt (24 + 12 * k) 1 data ∧
      fieldAt (25 + 12 * j) 1 data ≠ fieldAt (25 + 12 * k) 1 data

theorem packSlotOf_isNone : ∀ v ∈ [0, 1, 2, 3, 255], ((packSlotOf v).getD none).isNone = true ↔ v = 255 := by
  decide

theorem packSlotOf_inj : ∀ v ∈ [0, 1, 2, 3, 255], ∀ w ∈ [0, 1, 2, 3, 255],
    (packSlotOf v).getD none = (packSlotOf w).getD none ↔ v = w := by decide

theorem packSlot_values {v : Nat} (legal : ¬ (3 < v ∧ v ≠ 255)) : v ∈ [0, 1, 2, 3, 255] := by
  simp only [List.mem_cons, List.not_mem_nil, or_false]
  omega

section
variable {data : List Byte} (slots : ∀ k < 8, ¬ (3 < fieldAt (24 + 12 * k) 1 data ∧ fieldAt (24 + 12 * k) 1 data ≠ 255))
include slots

theorem targetAgrees_iff {k : Nat} (inside : k < 8) :
    targetAgrees ((termsAt data).classes.take k) (classAt data k) = true ↔ ¬ termsDiffers data k := by
  have offset (i o : Nat) : classOffset i o = 14 + o + 12 * i := by
    unfold classOffset
    omega
  have taken : (termsAt data).classes.take k = (List.range k).map (classAt data) := by
    show ((List.range 8).map (classAt data)).take k = _
    rw [← List.map_take, List.take_range, Nat.min_eq_left inside.le]
  have same (j : Nat) (earlier : j < k) :
      (classAt data j).pack = (classAt data k).pack ↔ fieldAt (24 + 12 * j) 1 data = fieldAt (24 + 12 * k) 1 data := by
    simp only [classAt, offset]
    exact packSlotOf_inj _ (packSlot_values (slots j (earlier.trans inside))) _ (packSlot_values (slots k inside))
  have absent : (classAt data k).pack.isNone = true ↔ fieldAt (24 + 12 * k) 1 data = 255 := by
    simp only [classAt, offset]
    exact packSlotOf_isNone _ (packSlot_values (slots k inside))
  have target (j : Nat) : (classAt data j).target = fieldAt (25 + 12 * j) 1 data := by
    simp only [classAt, offset]
  unfold targetAgrees termsDiffers
  rw [Bool.or_eq_true, absent, taken, List.all_map, List.all_eq_true]
  simp only [List.mem_range, Function.comp_apply, Bool.or_eq_true, bne_iff_ne, ne_eq, beq_iff_eq, target, not_and, not_exists,
    not_not]
  rw [← or_iff_not_imp_left]
  refine or_congr_right (forall₂_congr fun j earlier => ?_)
  rw [same j earlier, ← imp_iff_not_or]

end

theorem termsWholeChecks_target {data : List Byte} (k : Nat) (inside : k < 8) :
    (targetChecks 0 [] (termsAt data).classes)[k]? =
      some (targetAgrees ((termsAt data).classes.take k) (classAt data k), 256 * 15 + k) := by
  have there : (termsAt data).classes[k]? = some (classAt data k) := by
    show ((List.range 8).map (classAt data))[k]? = _
    simp [inside]
  rw [targetChecks_getElem?, there, List.nil_append, Nat.zero_add]
  rfl

theorem termsWholeChecks_length (data : List Byte) : (targetChecks 0 [] (termsAt data).classes).length ≤ 8 := by
  refine Nat.le_of_not_lt fun long => ?_
  have there := targetChecks_getElem? 0 [] (termsAt data).classes 8
  rw [List.getElem?_eq_none (l := (termsAt data).classes) (by simp [termsAt]), List.getElem?_eq_getElem long] at there
  exact nomatch there

/-! ### A load of TERMS by its tests (R102) -/

section
variable {data : List Byte} {d : Device}

theorem Device.loadTerms_of_segment {seg : Byte} (other : seg ≠ 0) : d.loadTerms seg data = (⟨.badSegment, 0, []⟩, d) := if_pos other

theorem Device.loadTerms_of_length (other : data.length ≠ 110) : d.loadTerms 0 data = (⟨.badFrame, 0, []⟩, d) :=
  (if_neg (by simp)).trans (if_pos other)

section
variable (whole : data.length = 110)
include whole

theorem Device.loadTerms_of_whole :
    d.loadTerms 0 data =
      match termsRefusal data with
      | some detail => (.refuse .badValue detail, d)
      | none =>
        if d.bufferNeeded then (.refuse .notNow 0, d)
        else
          (.ok ([3, 0] ++ bytesOf 4 (d.hev.generation + 1).toNat ++ [BitVec.ofNat 8 (bitsOf (headNumbers.map d.filling))]),
            d.takeTerms (termsAt data)) := (if_neg (by simp)).trans (if_neg (not_not.2 whole))

end

theorem Device.bufferNeeded_iff (d : Device) :
    d.bufferNeeded = true ↔ ∃ n, (d.slot n).acc ≠ none ∧ (d.slot n).buf ≠ none := by
  have all (n : Fin 4) : n ∈ headNumbers := by
    revert n
    decide
  simp [Device.bufferNeeded, all, Option.isSome_iff_ne_none]

end

/-! ### The packs closed (R106, R150) -/

/-- The close of a slot's pack by a TERMS load: its pack is that of the device before the load. -/
def Device.policyClosed (d e : Device) (n : Fin 4) : Device :=
  match (d.slot n).acc with
  | none => e
  | some p =>
    let closed : ClosedPack := ⟨p, ⟨false, false, true⟩, d.bpu.uptime⟩
    if e.reportRoom then Device.placeReport (packFrame n closed) (e.setSlot n ⟨none, none⟩)
    else e.setSlot n ⟨none, some closed⟩

theorem Device.slot_of_pku {d e : Device} (same : e.pku = d.pku) (n : Fin 4) : e.slot n = d.slot n := by
  rw [Device.slot, Device.slot, same]

/-- The close of one slot leaves the others, and the clock. -/
theorem Device.policyClosed_keeps (d e : Device) (n : Fin 4) :
    (d.policyClosed e n).bpu = e.bpu ∧ (d.policyClosed e n).pku.slots.length = e.pku.slots.length ∧
      ∀ m, m ≠ n → (d.policyClosed e n).slot m = e.slot m := by
  unfold Device.policyClosed
  split
  · exact ⟨rfl, rfl, fun _ _ => rfl⟩
  · dsimp only
    split
    · have touched := Device.placeReport_touches (packFrame n ⟨‹Pack›, ⟨false, false, true⟩, d.bpu.uptime⟩) (e.setSlot n ⟨none, none⟩)
      have pku := touched .pku (by decide)
      refine ⟨touched .bpu (by decide), ?_, fun m other => (Device.slot_of_pku pku m).trans (Device.slot_setSlot_ne other)⟩
      exact (congrArg (fun p : Pku => p.slots.length) pku).trans List.length_set
    · exact ⟨rfl, List.length_set, fun m other => Device.slot_setSlot_ne other⟩

/-- Slots closed one after another, each once, are closed by what they held before. -/
theorem Device.foldl_closePack_eq {d : Device} (free : ∀ n, (d.slot n).acc = none ∨ (d.slot n).buf = none) :
    ∀ (l : List (Fin 4)) (e : Device), l.Nodup → e.pku.slots.length = 4 → e.bpu = d.bpu → (∀ n ∈ l, e.slot n = d.slot n) →
      l.foldl (fun e n => e.closePack n .policyOnly) e = l.foldl d.policyClosed e
  | [], _, _, _, _, _ => rfl
  | n :: l, e, once, four, clock, held => by
    obtain ⟨fresh, once⟩ := List.nodup_cons.1 once
    obtain ⟨here, there⟩ := List.forall_mem_cons.1 held
    have closed : e.closePack n .policyOnly = d.policyClosed e n := by
      unfold Device.policyClosed
      cases filling : (d.slot n).acc with
      | none => exact Device.closePack_none _ (.inl (by rw [here, filling]))
      | some p =>
        have empty : (d.slot n).buf = none := (free n).resolve_left (by simp [filling])
        rw [Device.closePack_eq .policyOnly four (by rw [here]; exact filling) (by rw [here]; exact empty), clock]
        rfl
    obtain ⟨clock', four', others⟩ := d.policyClosed_keeps e n
    rw [List.foldl_cons, List.foldl_cons, closed]
    refine Device.foldl_closePack_eq free l _ once (four'.trans four) (clock'.trans clock) fun m later => ?_
    exact (others m fun same => fresh (same ▸ later)).trans (there m later)

/-- Settles O45: a LOAD of TERMS by its tests, what it replaces and closes, and the first field refused. -/
theorem termsLoadReplacesTermsAndClosesPacks : Obligations.TermsLoadReplacesTermsAndClosesPacks := by
  intro seg data s ready four d refused
  refine ⟨fun other => exec_of_request ready rfl (Device.loadTerms_of_segment (d := d) other), fun zero other => ?_,
    fun zero whole => ⟨fun detail bad => ?_, fun legal => ⟨fun needed => ?_, fun free => ?_⟩, ?_⟩⟩
  · subst zero
    exact exec_of_request ready rfl (Device.loadTerms_of_length (d := d) other)
  · subst zero
    refine exec_of_request ready rfl ((Device.loadTerms_of_whole (d := d) whole).trans ?_)
    rw [bad]
    rfl
  · subst zero
    refine exec_of_request ready rfl ((Device.loadTerms_of_whole (d := d) whole).trans ?_)
    rw [legal]
    exact if_pos (d.bufferNeeded_iff.2 needed)
  · intro close
    subst zero
    have free' : d.bufferNeeded ≠ true := fun needed => by
      obtain ⟨n, filling, held⟩ := d.bufferNeeded_iff.1 needed
      exact (free n).elim filling held
    have closes : d.closeForTerms = headNumbers.foldl s.dev.policyClosed d :=
      Device.foldl_closePack_eq (d := s.dev) free headNumbers d (by decide) four rfl fun _ _ => rfl
    have hev : d.closeForTerms.hev = s.dev.hev := d.closeForTerms_touches .hev (by decide)
    have taken : d.takeTerms (termsAt data) =
        { headNumbers.foldl s.dev.policyClosed d with hev := { s.dev.hev with
          terms := some (termsAt data), generation := s.dev.hev.generation + 1 } } := by
      unfold Device.takeTerms
      rw [← closes, ← hev]
    refine exec_of_request ready rfl ((Device.loadTerms_of_whole (d := d) whole).trans ?_)
    rw [legal]
    refine (if_neg free').trans ?_
    rw [taken]
    rfl
  · intro at' bad places combined differs
    have byPlace := termsChecks_places data (termsWholeChecks (termsAt data))
    refine ⟨fun front x back parts fails before => ?_, fun legal => ?_⟩
    · have parts' : termsPlaces = front ++ x :: back := parts
      refine byPlace.trans ?_
      rw [parts']
      exact firstBad_of_place (termsCheck_iff data) fails before _
    · have fields : termsRefusal data = firstBad (termsWholeChecks (termsAt data)) :=
        byPlace.trans (firstBad_of_places (termsCheck_iff data) legal _)
      have inPlaces (p k : Nat) (there : (p, k) ∈ termsPlaces) : ¬ termsBad data (p, k) := legal (p, k) there
      have unit : ¬ 2 < fieldAt 0 1 data := inPlaces 1 0 (by decide)
      have resolution : ¬ 3 < fieldAt 1 1 data := inPlaces 2 0 (by decide)
      have slots : ∀ k < 8, ¬ (3 < fieldAt (24 + 12 * k) 1 data ∧ fieldAt (24 + 12 * k) 1 data ≠ 255) := fun k inside =>
        inPlaces 14 k (by interval_cases k <;> decide)
      have combination := fauPerStep_isSome (fieldAt 0 1 data) (Nat.not_lt.1 unit) (fieldAt 1 1 data) (Nat.not_lt.1 resolution)
      have agrees {k : Nat} (inside : k < 8) := targetAgrees_iff slots inside
      have targets (sold : combined) :
          firstBad (termsWholeChecks (termsAt data)) = firstBad (targetChecks 0 [] (termsAt data).classes) :=
        if_pos (combination.2 sold)
      refine ⟨fun sold same => ?_, fun unsold => ?_, fun sold k inside other before => ?_⟩
      · rw [fields, targets sold, firstBad_eq_none]
        intro c held
        obtain ⟨k, there⟩ := List.mem_iff_getElem?.1 held
        have inside : k < 8 := (List.getElem?_eq_some_iff.1 there).1.trans_le (termsWholeChecks_length data)
        rw [termsWholeChecks_target k inside] at there
        obtain rfl := Option.some.inj there
        exact (agrees inside).2 (same k inside)
      · rw [fields]
        exact if_neg fun sold => unsold (combination.1 sold)
      · rw [fields, targets sold, ← List.append_nil (targetChecks 0 [] (termsAt data).classes)]
        refine firstBad_of_getElem (k := k) ?_ (fun j earlier c there => ?_) _
        · rw [termsWholeChecks_target k inside, Bool.eq_false_iff.2 fun same => (agrees inside).1 same other]
        · rw [termsWholeChecks_target j (earlier.trans inside)] at there
          obtain rfl := Option.some.inj there
          exact (agrees (earlier.trans inside)).2 (before j earlier)

end Sys2Proof.Machine
end

section
/-!
PROOF. Loads of HEADS and INPUTS (R112, R113, R167, R168): their tests in order, their tables' checks by their places, and what a table
taken does to the heads, the inputs and the line.
-/

namespace Sys2Proof.Machine

/-! ### The fields of a HEADS table (R112) -/

/-- A field of a HEADS table out of its range, by its head and its place. -/
def headsBad (data : List Byte) (x : Nat × Nat) : Prop :=
  match x.2 with
  | 1 => 1 < fieldAt (20 * x.1 + 0) 1 data
  | 2 => 1599 < fieldAt (20 * x.1 + 1) 2 data
  | 3 => 1599 < fieldAt (20 * x.1 + 3) 2 data
  | 4 => fieldAt (20 * x.1 + 3) 2 data < fieldAt (20 * x.1 + 1) 2 data
  | 5 => fieldAt (20 * x.1 + 9) 2 data < 1
  | 6 => fieldAt (20 * x.1 + 11) 4 data < 1 ∨ 16777215 < fieldAt (20 * x.1 + 11) 4 data
  | 7 => fieldAt (20 * x.1 + 15) 2 data < 1 ∨ 1000 < fieldAt (20 * x.1 + 15) 2 data
  | 8 => fieldAt (20 * x.1 + 17) 1 data < 1 ∨ 250 < fieldAt (20 * x.1 + 17) 1 data
  | 9 => 1000 < fieldAt (20 * x.1 + 18) 2 data
  | _ => False

/-- The check of a field of a HEADS table, by its head and its place. -/
def headsCheck (b : List Byte) (x : Nat × Nat) : Bool :=
  match x.2 with
  | 1 => fieldAt (20 * x.1) 1 b ≤ 1
  | 2 => fieldAt (20 * x.1 + 1) 2 b ≤ 1599
  | 3 => fieldAt (20 * x.1 + 3) 2 b ≤ 1599
  | 4 => fieldAt (20 * x.1 + 1) 2 b ≤ fieldAt (20 * x.1 + 3) 2 b
  | 5 => 1 ≤ fieldAt (20 * x.1 + 9) 2 b
  | 6 => 1 ≤ fieldAt (20 * x.1 + 11) 4 b && fieldAt (20 * x.1 + 11) 4 b ≤ 16777215
  | 7 => 1 ≤ fieldAt (20 * x.1 + 15) 2 b && fieldAt (20 * x.1 + 15) 2 b ≤ 1000
  | 8 => 1 ≤ fieldAt (20 * x.1 + 17) 1 b && fieldAt (20 * x.1 + 17) 1 b ≤ 250
  | 9 => fieldAt (20 * x.1 + 18) 2 b ≤ 1000
  | _ => true

/-- What BAD_VALUE names of a field of a HEADS table: of a zone whose first cell is above its last, one of the two (log 9). -/
def headsDetail (x : Nat × Nat) : Nat :=
  256 * (if x.2 = 4 then (if Config.zoneOrderNamesLast then 3 else 2) else x.2) + x.1

/-- The places of a HEADS table: the nine fields of each head. -/
def headsPlaces : List (Nat × Nat) := (List.range 4).flatMap fun n => [1, 2, 3, 4, 5, 6, 7, 8, 9].map fun p => (n, p)

/-- A field in a closed range, as its check and as its fault. -/
theorem inRange_iff (low high v : Nat) : (decide (low ≤ v) && decide (v ≤ high)) = true ↔ ¬ (v < low ∨ high < v) := by
  rw [Bool.and_eq_true, decide_eq_true_iff, decide_eq_true_iff]
  omega

theorem headsCheck_iff (b : List Byte) (x : Nat × Nat) : headsCheck b x = true ↔ ¬ headsBad b x := by
  obtain ⟨n, p⟩ := x
  unfold headsCheck headsBad
  dsimp only
  split
  · exact decide_eq_true_iff.trans Nat.not_lt.symm
  · exact decide_eq_true_iff.trans Nat.not_lt.symm
  · exact decide_eq_true_iff.trans Nat.not_lt.symm
  · exact decide_eq_true_iff.trans Nat.not_lt.symm
  · exact decide_eq_true_iff.trans Nat.not_lt.symm
  · exact inRange_iff 1 16777215 _
  · exact inRange_iff 1 1000 _
  · exact inRange_iff 1 250 _
  · exact decide_eq_true_iff.trans Nat.not_lt.symm
  · exact ⟨fun _ => not_false, fun _ => rfl⟩

/-- The checks of a HEADS table are those of its places. -/
theorem headsRefusal_places (b : List Byte) :
    headsRefusal b = firstBad (headsPlaces.map (fun x => (headsCheck b x, headsDetail x)) ++ []) := by
  have heads : (List.range 4).flatMap (headChecks b) = headsPlaces.map fun x => (headsCheck b x, headsDetail x) := by
    unfold headsPlaces
    rw [List.map_flatMap]
    rfl
  rw [headsRefusal, heads, List.append_nil]

/-! ### The fields of an INPUTS table (R167) -/

/-- A field of an INPUTS table out of its range, by its input and its place. -/
def inputsBad (data : List Byte) (x : Nat × Nat) : Prop :=
  match x.2 with
  | 1 => 3 < fieldAt (5 * x.1) 1 data
  | 2 | 3 | 4 => 1 < fieldAt (5 * x.1 + x.2 - 1) 1 data
  | _ => False

/-- The check of a field of an INPUTS table, by its input and its place. -/
def inputsCheck (b : List Byte) (x : Nat × Nat) : Bool :=
  match x.2 with
  | 1 => (inputFunctionOf (fieldAt (5 * x.1) 1 b)).isSome
  | 2 => fieldAt (5 * x.1 + 1) 1 b ≤ 1
  | 3 => fieldAt (5 * x.1 + 2) 1 b ≤ 1
  | 4 => fieldAt (5 * x.1 + 3) 1 b ≤ 1
  | _ => true

/-- The places of an INPUTS table: the five fields of each input. -/
def inputsPlaces : List (Nat × Nat) := (List.range 8).flatMap fun n => [1, 2, 3, 4, 5].map fun p => (n, p)

theorem inputFunctionOf_isSome (v : Nat) : (inputFunctionOf v).isSome = true ↔ ¬ 3 < v := by
  match v with
  | 0 | 1 | 2 | 3 => decide
  | v + 4 => simp [inputFunctionOf]

theorem inputsCheck_iff (b : List Byte) (x : Nat × Nat) : inputsCheck b x = true ↔ ¬ inputsBad b x := by
  obtain ⟨n, p⟩ := x
  match p with
  | 1 => exact inputFunctionOf_isSome _
  | 2 => exact decide_eq_true_iff.trans Nat.not_lt.symm
  | 3 => exact decide_eq_true_iff.trans Nat.not_lt.symm
  | 4 => exact decide_eq_true_iff.trans Nat.not_lt.symm
  | 0 => exact ⟨fun _ => not_false, fun _ => rfl⟩
  | p + 5 => exact ⟨fun _ => not_false, fun _ => rfl⟩

/-- The checks of an INPUTS table are those of its places; the debounce byte never fails. -/
theorem inputsRefusal_places (b : List Byte) :
    inputsRefusal b = firstBad (inputsPlaces.map (fun x => (inputsCheck b x, 256 * x.2 + x.1)) ++ []) := rfl

/-! ### A load of HEADS (R113) -/

section
variable {data : List Byte} {d : Device}

theorem Device.loadHeads_of_notIdle {seg : Byte} (busy : d.lct.lineState ≠ .idle) :
    d.loadHeads seg data = (⟨.wrongState, 1, []⟩, d) := if_pos busy

section
variable (idle : d.lct.lineState = .idle)
include idle

theorem Device.loadHeads_of_segment {seg : Byte} (other : seg ≠ 0) : d.loadHeads seg data = (⟨.badSegment, 0, []⟩, d) :=
  (if_neg (not_not.2 idle)).trans (if_pos other)

theorem Device.loadHeads_of_length (other : data.length ≠ 80) : d.loadHeads 0 data = (⟨.badFrame, 0, []⟩, d) :=
  ((if_neg (not_not.2 idle)).trans (if_neg (by simp))).trans (if_pos other)

theorem Device.loadHeads_of_whole (whole : data.length = 80) :
    d.loadHeads 0 data =
      match headsRefusal data with
      | some detail => (.refuse .badValue detail, d)
      | none => (.ok [4, 0], d.takeHeads (headsAt data)) :=
  ((if_neg (not_not.2 idle)).trans (if_neg (by simp))).trans (if_neg (not_not.2 whole))

end

/-- A head under the table taken: IDLE or DISABLED by its enable. -/
theorem Device.takeHeads_head (four : d.sth.heads.length = 4) (n : Fin 4) :
    (d.takeHeads (headsAt data)).head n = Head.afterLoad (headEntryAt data n) (d.head n) := by
  have inside : n.val < d.sth.heads.length := by omega
  have entry : (headsAt data)[n.val]? = some (headEntryAt data n) := by simp [headsAt]
  simp [Device.takeHeads, Device.head, List.getElem?_zipWith, entry, inside]

/-! ### A load of INPUTS (R168) -/

theorem Device.loadInputs_of_line {seg : Byte} (notIdle : d.lct.lineState ≠ .idle) (notPaused : d.lct.lineState ≠ .paused) :
    d.loadInputs seg data = (⟨.wrongState, 1, []⟩, d) := if_pos ⟨notIdle, notPaused⟩

section
variable (rests : d.lct.lineState = .idle ∨ d.lct.lineState = .paused)
include rests

theorem Device.loadInputs_of_segment {seg : Byte} (other : seg ≠ 0) : d.loadInputs seg data = (⟨.badSegment, 0, []⟩, d) :=
  (if_neg fun moves => rests.elim moves.1 moves.2).trans (if_pos other)

theorem Device.loadInputs_of_length (other : data.length ≠ 40) : d.loadInputs 0 data = (⟨.badFrame, 0, []⟩, d) :=
  ((if_neg fun moves => rests.elim moves.1 moves.2).trans (if_neg (by simp))).trans (if_pos other)

theorem Device.loadInputs_of_whole (whole : data.length = 40) :
    d.loadInputs 0 data =
      match inputsRefusal data with
      | some detail => (.refuse .badValue detail, d)
      | none =>
        (.ok [5, 0, (d.takeInputsTable (inputsAt data)).lct.lineState.code], d.takeInputsTable (inputsAt data)) :=
  ((if_neg fun moves => rests.elim moves.1 moves.2).trans (if_neg (by simp))).trans (if_neg (not_not.2 whole))

end

end

/-! ### The input latches under a new table (R168, stage 3) -/

/-- What a load does to an input's latch. -/
def Lct.loadedLatch (l : Lct) (n : Fin 8) (x : LatchState) : LatchState :=
  if (l.entry n).enable && (l.entry n).function == .event then
    if !(l.entry n).levelMode || !l.inputActive n then x.levelEnd else x
  else .clear

theorem updateAt_id {α : Type} : ∀ (i : Nat) (l : List α), updateAt (fun x => x) i l = l
  | i, [] => by cases i <;> rfl
  | 0, _ :: _ => rfl
  | i + 1, a :: l => congrArg (a :: ·) (updateAt_id i l)

theorem Lct.inputLatchAfterLoad_eq (l : Lct) (n : Fin 8) :
    l.inputLatchAfterLoad n = { l with latches := updateAt (l.loadedLatch n) (3 + n.val) l.latches } := by
  unfold Lct.inputLatchAfterLoad Lct.loadedLatch
  by_cases event : ((l.entry n).enable && (l.entry n).function == .event) = true
  · simp only [if_pos event]
    by_cases ends : (!(l.entry n).levelMode || !l.inputActive n) = true
    · simp only [if_pos ends]
      rfl
    · simp only [if_neg ends, updateAt_id]
  · simp only [if_neg event]
    rfl

/-- The latches of several inputs under a new table, one after another. -/
def Lct.loadedLatches (l : Lct) (numbers : List (Fin 8)) : List LatchState :=
  numbers.foldl (fun latches n => updateAt (l.loadedLatch n) (3 + n.val) latches) l.latches

theorem Lct.foldl_inputLatchAfterLoad (l : Lct) : ∀ (numbers : List (Fin 8)) (latches : List LatchState),
    numbers.foldl Lct.inputLatchAfterLoad { l with latches := latches } =
      { l with latches := numbers.foldl (fun latches n => updateAt (l.loadedLatch n) (3 + n.val) latches) latches }
  | [], _ => rfl
  | n :: numbers, latches => by
    rw [List.foldl_cons, List.foldl_cons, Lct.inputLatchAfterLoad_eq, ← Lct.foldl_inputLatchAfterLoad l numbers]
    rfl

theorem foldl_updateAt_spec {f : Fin 8 → LatchState → LatchState} : ∀ (numbers : List (Fin 8)) (latches : List LatchState),
    numbers.Nodup →
      (numbers.foldl (fun latches n => updateAt (f n) (3 + n.val) latches) latches).length = latches.length ∧
      (∀ n ∈ numbers, (numbers.foldl (fun latches n => updateAt (f n) (3 + n.val) latches) latches)[3 + n.val]? =
        latches[3 + n.val]?.map (f n)) ∧
      ∀ i, (∀ n ∈ numbers, i ≠ 3 + n.val) →
        (numbers.foldl (fun latches n => updateAt (f n) (3 + n.val) latches) latches)[i]? = latches[i]?
  | [], _, _ => ⟨rfl, nofun, fun _ _ => rfl⟩
  | n :: numbers, latches, once => by
    obtain ⟨fresh, once⟩ := List.nodup_cons.1 once
    obtain ⟨length, changed, others⟩ := foldl_updateAt_spec (f := f) numbers (updateAt (f n) (3 + n.val) latches) once
    rw [List.foldl_cons]
    refine ⟨length.trans (updateAt_length _ _ _), List.forall_mem_cons.2 ⟨?_, fun m there => ?_⟩, fun i apart => ?_⟩
    · rw [others _ fun m there same => fresh (by rwa [Fin.ext (Nat.add_left_cancel same)]), getElem?_updateAt, if_pos rfl]
    · have other : 3 + m.val ≠ 3 + n.val := fun same => fresh (by rwa [← Fin.ext (Nat.add_left_cancel same)])
      rw [changed m there, getElem?_updateAt, if_neg other]
    · obtain ⟨here, later⟩ := List.forall_mem_cons.1 apart
      rw [others i later, getElem?_updateAt, if_neg here]

/-- The line control with a table taken and its input levels, its latches as they come to be. -/
def Lct.underTable (l : Lct) (table : List InputEntry) (latches : List LatchState) : Lct :=
  { l with table := table, inputs := l.inputs.map fun i => ⟨i.raw, i.raw, none⟩, latches := latches }

theorem Lct.tableTaken_eq (l : Lct) (table : List InputEntry) :
    l.tableTaken table = l.underTable table ((l.underTable table l.latches).loadedLatches inputNumbers) :=
  Lct.foldl_inputLatchAfterLoad (l.underTable table l.latches) inputNumbers l.latches

theorem inputsAt_entry (l : Lct) (data : List Byte) (latches : List LatchState) (n : Fin 8) :
    (l.underTable (inputsAt data) latches).entry n = inputEntryAt data n := by
  simp [Lct.underTable, Lct.entry, inputsAt]

section
variable {l : Lct} {data : List Byte} {latches : List LatchState} {n : Fin 8}

theorem Lct.loadedLatch_of_ends (enabled : (inputEntryAt data n).enable = true) (event : (inputEntryAt data n).function = .event)
    (ends : (inputEntryAt data n).levelMode = false ∨ (l.underTable (inputsAt data) latches).inputActive n = false) (x : LatchState) :
    (l.underTable (inputsAt data) latches).loadedLatch n x = x.levelEnd := by
  unfold Lct.loadedLatch
  rw [inputsAt_entry, enabled, event, if_pos (by simp), if_pos (by simpa using ends)]

theorem Lct.loadedLatch_of_stays (enabled : (inputEntryAt data n).enable = true) (event : (inputEntryAt data n).function = .event)
    (level : (inputEntryAt data n).levelMode = true) (active : (l.underTable (inputsAt data) latches).inputActive n = true)
    (x : LatchState) : (l.underTable (inputsAt data) latches).loadedLatch n x = x := by
  unfold Lct.loadedLatch
  rw [inputsAt_entry, enabled, event, if_pos (by simp), if_neg (by simp [level, active])]

theorem Lct.loadedLatch_of_other (other : (inputEntryAt data n).enable = false ∨ (inputEntryAt data n).function ≠ .event)
    (x : LatchState) : (l.underTable (inputsAt data) latches).loadedLatch n x = .clear := by
  unfold Lct.loadedLatch
  rw [inputsAt_entry, if_neg]
  rcases other with disabled | function
  · simp [disabled]
  · simp [function]

end

theorem LatchState.levelEnd_of_ne {x : LatchState} (other : x ≠ .held) : x.levelEnd = x := by
  cases x <;> first | rfl | exact absurd rfl other

/-- The latches under a new table, input by input (R168). -/
theorem Lct.loadedLatches_spec (l : Lct) (data : List Byte) :
    let latches := (l.underTable (inputsAt data) l.latches).loadedLatches inputNumbers
    let taken := l.underTable (inputsAt data) latches
    latches.length = l.latches.length ∧
    (∀ n : Fin 8,
      ((inputEntryAt data n).enable = true → (inputEntryAt data n).function = .event →
        (l.latches[3 + n.val]? = some .held → (inputEntryAt data n).levelMode = false ∨ taken.inputActive n = false →
          latches[3 + n.val]? = some .clear) ∧
        (l.latches[3 + n.val]? ≠ some .held ∨ ((inputEntryAt data n).levelMode = true ∧ taken.inputActive n = true) →
          latches[3 + n.val]? = l.latches[3 + n.val]?)) ∧
      ((inputEntryAt data n).enable = false ∨ (inputEntryAt data n).function ≠ .event →
        latches[3 + n.val]? = l.latches[3 + n.val]?.map fun _ => .clear)) ∧
    ∀ i, i < 3 ∨ 11 ≤ i → latches[i]? = l.latches[i]? := by
  intro latches taken
  have all (n : Fin 8) : n ∈ inputNumbers := by
    revert n
    decide
  obtain ⟨length, changed, others⟩ := foldl_updateAt_spec (f := (l.underTable (inputsAt data) l.latches).loadedLatch)
    inputNumbers l.latches (by decide)
  have changed (n : Fin 8) : latches[3 + n.val]? = l.latches[3 + n.val]?.map ((l.underTable (inputsAt data) l.latches).loadedLatch n) :=
    changed n (all n)
  refine ⟨length, fun n => ⟨fun enabled event => ⟨fun held ends => ?_, fun stays => ?_⟩, fun other => ?_⟩, fun i outside => ?_⟩
  · have ended := Lct.loadedLatch_of_ends (l := l) (latches := l.latches) enabled event ends
    rw [changed, held, Option.map_some, ended]
    rfl
  · rw [changed]
    by_cases ends : (inputEntryAt data n).levelMode = false ∨ taken.inputActive n = false
    · have notHeld : l.latches[3 + n.val]? ≠ some .held := by
        refine stays.resolve_right ?_
        rintro ⟨level, active⟩
        simp [level, active] at ends
      cases there : l.latches[3 + n.val]? with
      | none => rfl
      | some x =>
        have other : x ≠ .held := fun same => notHeld (by rw [there, same])
        rw [Option.map_some, Lct.loadedLatch_of_ends (l := l) (latches := l.latches) enabled event ends, LatchState.levelEnd_of_ne other]
    · obtain ⟨level, active⟩ := not_or.1 ends
      have stands := Lct.loadedLatch_of_stays (l := l) (latches := l.latches) enabled event (Bool.not_eq_false _ ▸ level)
        (Bool.not_eq_false _ ▸ active)
      rw [funext stands]
      exact Option.map_id'
  · rw [changed, funext (Lct.loadedLatch_of_other (l := l) (latches := l.latches) other)]
  · refine others i fun n _ same => ?_
    omega

/-! ### The emergency stop under a new table (R163, R168) -/

theorem Device.faultLine_of_resting {d : Device} (rests : d.lct.lineState = .idle ∨ d.lct.lineState = .paused) :
    d.faultLine false = Device.faultHeads { d with lct := { d.lct with lineState := .faulted, haltCause := .estop } } := by
  unfold Device.faultLine
  rcases rests with line | line <;> rw [line]

/-- The line control after a load of INPUTS, but for the latch of the emergency stop. -/
def Lct.afterInputs (taken : Lct) (latches : List LatchState) : Lct :=
  { taken with
    beltRun := taken.formBeltRun
    estop := taken.formEstop
    lineState := if taken.formEstop = true ∧ taken.estop = false then .faulted else taken.lineState
    haltCause := if taken.formEstop = true ∧ taken.estop = false then .estop else taken.haltCause
    latches := latches }

section
variable {d : Device} {taken : Lct}

/-- The emergency stop condition formed anew, with the line at rest. -/
theorem Device.estopEdge_of_resting {v : Device} (rests : taken.lineState = .idle ∨ taken.lineState = .paused)
    (edge : v = Device.estopEdge false { d with lct := { taken with beltRun := taken.formBeltRun } }) :
    let l := { taken with beltRun := taken.formBeltRun }
    (∃ latches, v.lct = taken.afterInputs latches) ∧ Touches [.lct, .sth, .hev, .rtk, .lnk, .dec, .draws] d v ∧
    (taken.formEstop = taken.estop → v = { d with lct := l }) ∧
    (taken.formEstop = false → taken.estop = true →
      v = { d with lct := { l with estop := false }.setLatch .estop LatchState.levelEnd }) ∧
    (taken.formEstop = true → taken.estop = false → ∃ (order : List (Fin 4)) (draws : Nat),
      order.Perm [0, 1, 2, 3] ∧
      v = Device.raise { order.foldl (fun g m => g.faultHead m)
        { d with lct := { l with estop := true, lineState := .faulted, haltCause := .estop } } with draws := draws } .estop) := by
  intro l
  by_cases same : taken.formEstop = taken.estop
  · have stays : v = { d with lct := l } := edge.trans (Device.estopEdge_of_same (d := { d with lct := l }) same)
    refine ⟨⟨taken.latches, ?_⟩, ?_, fun _ => stays, fun now was => ?_, fun now was => ?_⟩
    · have notBoth : ¬ (taken.formEstop = true ∧ taken.estop = false) := fun ⟨now, was⟩ => by simp [now, was] at same
      rw [stays]
      unfold Lct.afterInputs
      rw [if_neg notBoth, if_neg notBoth, same]
    · rw [stays]
      exact (Touches.of_lct _ _).weaken rfl
    · simp [now, was] at same
    · simp [now, was] at same
  · cases now : taken.formEstop with
    | false =>
      have was : taken.estop = true := by simpa [now] using same
      have ends : v = { d with lct := { l with estop := false }.setLatch .estop LatchState.levelEnd } :=
        edge.trans (Device.estopEdge_of_inactive (d := { d with lct := l }) now was)
      refine ⟨⟨updateAt LatchState.levelEnd Latch.estop.bit taken.latches, ?_⟩, ?_, fun equal => absurd (now.trans equal) same,
        fun _ _ => ends, nofun⟩
      · rw [ends]
        unfold Lct.afterInputs
        rw [now]
        rfl
      · rw [ends]
        exact (Touches.of_lct _ _).weaken rfl
    | true =>
      have was : taken.estop = false := by simpa [now] using same
      have faults : v = (Device.faultLine false { d with lct := { l with estop := true } }).raise .estop :=
        edge.trans (Device.estopEdge_of_active (d := { d with lct := l }) now was)
      rw [Device.faultLine_of_resting (by exact rests)] at faults
      have moved := Device.faultHeads_touches { d with lct := { l with estop := true, lineState := .faulted, haltCause := .estop } }
      obtain ⟨order, draws, perm, heads⟩ :=
        Device.faultHeads_order { d with lct := { l with estop := true, lineState := .faulted, haltCause := .estop } }
      refine ⟨⟨updateAt LatchState.raise Latch.estop.bit taken.latches, ?_⟩, ?_, fun equal => absurd (now.trans equal) same, nofun,
        fun _ _ => ⟨order, draws, perm, ?_⟩⟩
      · have lct : (Device.faultHeads { d with lct := { l with estop := true, lineState := .faulted, haltCause := .estop } }).lct =
            { l with estop := true, lineState := .faulted, haltCause := .estop } := moved .lct (by decide)
        rw [faults, Device.raise_lct]
        refine (congrArg (fun x : Lct => x.raise .estop) lct).trans ?_
        unfold Lct.afterInputs
        rw [now, was]
        rfl
      · rw [faults]
        exact (((Touches.of_lct d _).comp moved).comp (Touches.of_lct _ _)).weaken rfl
      · rw [faults]
        exact congrArg (fun e : Device => e.raise .estop) heads

end

/-- Settles O46: loads of HEADS and INPUTS by their tests, the first field refused, and what a table taken does. -/
theorem headsAndInputsLoadsReplaceTheirTables : Obligations.HeadsAndInputsLoadsReplaceTheirTables := by
  intro seg data s ready d refused
  refine ⟨fun busy => exec_of_request ready rfl (Device.loadHeads_of_notIdle (d := d) busy), fun idle => ⟨fun other => ?_,
    fun zero other => ?_, fun zero whole => ⟨fun detail bad => ?_, ?_, fun legal => ?_⟩⟩, fun notIdle notPaused => ?_,
    fun rests => ⟨fun other => ?_, fun zero other => ?_, fun zero whole => ⟨fun detail bad => ?_, ?_, fun legal => ?_⟩⟩⟩
  · exact exec_of_request ready rfl (Device.loadHeads_of_segment (d := d) idle other)
  · subst zero
    exact exec_of_request ready rfl (Device.loadHeads_of_length (d := d) idle other)
  · subst zero
    refine exec_of_request ready rfl ((Device.loadHeads_of_whole (d := d) idle whole).trans ?_)
    rw [bad]
    rfl
  · intro at' bad places
    refine ⟨fun front x back parts fails before => ?_, fun legal => ?_⟩
    · have parts' : headsPlaces = front ++ x :: back := parts
      have first : headsRefusal data = some (headsDetail x) := by
        rw [headsRefusal_places, parts']
        exact firstBad_of_place (headsCheck_iff data) fails before _
      refine ⟨fun other => first.trans ?_, fun zone => ?_⟩
      · rw [headsDetail, if_neg other]
      · rw [first, headsDetail, if_pos zone]
        cases Config.zoneOrderNamesLast
        · exact .inl rfl
        · exact .inr rfl
    · exact (headsRefusal_places data).trans (firstBad_of_places (headsCheck_iff data) legal _)
  · subst zero
    have loaded := (Device.loadHeads_of_whole (d := d) idle whole).trans (by rw [legal])
    exact ⟨d.takeHeads (headsAt data), exec_of_request ready rfl loaded, Touches.of_sth _ _, rfl,
      fun four n => Device.takeHeads_head (d := d) four n⟩
  · exact exec_of_request ready rfl (Device.loadInputs_of_line (d := d) notIdle notPaused)
  · exact exec_of_request ready rfl (Device.loadInputs_of_segment (d := d) rests other)
  · subst zero
    exact exec_of_request ready rfl (Device.loadInputs_of_length (d := d) rests other)
  · subst zero
    refine exec_of_request ready rfl ((Device.loadInputs_of_whole (d := d) rests whole).trans ?_)
    rw [bad]
    rfl
  · intro bad places
    refine ⟨fun front x back parts fails before => ?_, fun legal => ?_⟩
    · have parts' : inputsPlaces = front ++ x :: back := parts
      rw [inputsRefusal_places, parts']
      exact firstBad_of_place (inputsCheck_iff data) fails before _
    · exact (inputsRefusal_places data).trans (firstBad_of_places (inputsCheck_iff data) legal _)
  · subst zero
    have loaded := (Device.loadInputs_of_whole (d := d) rests whole).trans (by rw [legal])
    obtain ⟨length, inputs, others⟩ := s.dev.lct.loadedLatches_spec data
    have edge := d.takeInputsTable_eq (inputsAt data)
    rw [show d.lct = s.dev.lct from rfl, Lct.tableTaken_eq] at edge
    obtain ⟨⟨latches, lct⟩, touched, same, ends, faults⟩ := Device.estopEdge_of_resting (d := d)
      (taken := s.dev.lct.underTable (inputsAt data) ((s.dev.lct.underTable (inputsAt data) s.dev.lct.latches).loadedLatches inputNumbers))
      rests edge
    have estop : (d.takeInputsTable (inputsAt data)).lct.estop = (d.takeInputsTable (inputsAt data)).lct.formEstop := by
      rw [lct]
      rfl
    refine ⟨d.takeInputsTable (inputsAt data), exec_of_request ready rfl loaded, touched, ?_, ?_, ?_, estop, ?_, ?_, ?_, ?_,
      _, length, inputs, others, same, ends, faults⟩
    all_goals
      rw [lct]
      rfl

end Sys2Proof.Machine
end

section
/-!
PROOF. Loaded tables as they are read back (R97, R98, R110, R112, R114, R167, R168, R210).
-/

namespace Sys2Proof.Machine

/-! ### A layout cut into fields -/

/-- The bytes of a layout from an offset on. -/
def slice (o n : Nat) (b : List Byte) : List Byte := (b.drop o).take n

theorem slice_append (o n m : Nat) (b : List Byte) : slice o n b ++ slice (o + n) m b = slice o (n + m) b := by
  rw [slice, slice, slice, List.take_add, List.drop_drop]

theorem slice_all {n : Nat} {b : List Byte} (length : b.length = n) : slice 0 n b = b := by
  rw [slice, List.drop_zero, List.take_of_length_le length.le]

/-- The bytes of a field's number are the field. -/
theorem bytesOf_fieldAt {o n : Nat} {b : List Byte} (inside : o + n ≤ b.length) : bytesOf n (fieldAt o n b) = slice o n b := by
  have length : (slice o n b).length = n := by
    rw [slice, List.length_take, List.length_drop]
    omega
  have spelled := bytesOf_natOf (slice o n b)
  rwa [length] at spelled

theorem ofNat_fieldAt {o : Nat} {b : List Byte} (inside : o + 1 ≤ b.length) : [BitVec.ofNat 8 (fieldAt o 1 b)] = slice o 1 b := by
  rw [← bytesOf_one, bytesOf_fieldAt inside]

/-- Entries of one width, one behind another, are the layout that they fill. -/
theorem flatMap_slice (o w : Nat) (b : List Byte) : ∀ m, ((List.range m).flatMap fun k => slice (o + w * k) w b) = slice o (w * m) b
  | 0 => by simp [slice]
  | m + 1 => by
    rw [List.range_succ, List.flatMap_append, flatMap_slice o w b m, List.flatMap_singleton, slice_append]
    rfl

/-! ### The codes of the values -/

theorem saleUnitOf_code : ∀ v ≤ 2, ((saleUnitOf v).getD .ft2).code = BitVec.ofNat 8 v := by decide
theorem resolutionOf_code : ∀ v ≤ 3, ((resolutionOf v).getD .whole).code = BitVec.ofNat 8 v := by decide
theorem roundingOf_code : ∀ v ≤ 2, ((roundingOf v).getD .down).code = BitVec.ofNat 8 v := by decide
theorem suspectModeOf_code : ∀ v ≤ 2, ((suspectModeOf v).getD .skip).code = BitVec.ofNat 8 v := by decide
theorem inputFunctionOf_code : ∀ v ≤ 3, ((inputFunctionOf v).getD .unused).code = BitVec.ofNat 8 v := by decide
theorem indication_code : ∀ v ≤ 1, indication (v == 1) = BitVec.ofNat 8 v := by decide

/-- A pack slot as its byte. -/
def packSlotCode (p : Option (Fin 4)) : Byte := match p with | some n => BitVec.ofNat 8 n.val | none => 255

theorem packSlotOf_code : ∀ v ∈ [0, 1, 2, 3, 255], packSlotCode ((packSlotOf v).getD none) = BitVec.ofNat 8 v := by decide

/-! ### Tables that pass their checks -/

section
variable {b : List Byte}

theorem termsBad_of_passed (passed : termsRefusal b = none) : ∀ x ∈ termsPlaces, ¬ termsBad b x := by
  intro x there
  rw [termsRefusal, termsChecks_places, firstBad_eq_none] at passed
  exact (termsCheck_iff b x).1 (passed _ (List.mem_append_left _ (List.mem_map_of_mem there)))

theorem headsBad_of_passed (passed : headsRefusal b = none) : ∀ x ∈ headsPlaces, ¬ headsBad b x := by
  intro x there
  rw [headsRefusal_places, firstBad_eq_none] at passed
  exact (headsCheck_iff b x).1 (passed _ (List.mem_append_left _ (List.mem_map_of_mem there)))

theorem inputsBad_of_passed (passed : inputsRefusal b = none) : ∀ x ∈ inputsPlaces, ¬ inputsBad b x := by
  intro x there
  rw [inputsRefusal_places, firstBad_eq_none] at passed
  exact (inputsCheck_iff b x).1 (passed _ (List.mem_append_left _ (List.mem_map_of_mem there)))

/-! ### Tables read back -/

theorem classAt_bytes (whole : b.length = 110) (passed : termsRefusal b = none) {k : Nat} (inside : k < 8) :
    (classAt b k).bytes = slice (14 + 12 * k) 12 b := by
  have slot : ¬ (3 < fieldAt (24 + 12 * k) 1 b ∧ fieldAt (24 + 12 * k) 1 b ≠ 255) :=
    termsBad_of_passed passed (14, k) (by interval_cases k <;> decide)
  have offset (o : Nat) : classOffset k o = 14 + 12 * k + o := rfl
  have code := packSlotOf_code _ (packSlot_values slot)
  rw [show 24 + 12 * k = 14 + 12 * k + 10 by omega] at code
  have pack : [packSlotCode (classAt b k).pack] = slice (14 + 12 * k + 10) 1 b := by
    rw [← ofNat_fieldAt (by omega), ← code]
    rfl
  show bytesOf 4 (classAt b k).low ++ bytesOf 4 (classAt b k).high ++ bytesOf 1 (classAt b k).face ++ bytesOf 1 (classAt b k).force ++
    [packSlotCode (classAt b k).pack] ++ bytesOf 1 (classAt b k).target = _
  rw [pack]
  simp only [classAt, offset]
  rw [bytesOf_fieldAt (by omega), bytesOf_fieldAt (by omega), bytesOf_fieldAt (by omega), bytesOf_fieldAt (by omega),
    bytesOf_fieldAt (by omega)]
  simp only [Nat.add_zero, slice_append, Nat.add_assoc, Nat.reduceAdd]
  have cut (m : Nat) : 14 + (12 * k + m) = 14 + 12 * k + m := by omega
  simp only [cut, slice_append, Nat.reduceAdd]

theorem termsAt_bytes (whole : b.length = 110) (passed : termsRefusal b = none) : (termsAt b).bytes = b := by
  have legal := termsBad_of_passed passed
  have unit : ¬ 2 < fieldAt 0 1 b := legal (1, 0) (by decide)
  have resolution : ¬ 3 < fieldAt 1 1 b := legal (2, 0) (by decide)
  have rounding : ¬ 2 < fieldAt 2 1 b := legal (3, 0) (by decide)
  have suspect : ¬ 2 < fieldAt 3 1 b := legal (9, 0) (by decide)
  have classes : (termsAt b).classes.flatMap TermClass.bytes = slice 14 96 b := by
    rw [termsAt, List.flatMap_map]
    refine (List.flatMap_congr fun k there => ?_).trans (flatMap_slice 14 12 b 8)
    exact classAt_bytes whole passed (List.mem_range.1 there)
  have codes : [(termsAt b).unit.code, (termsAt b).resolution.code, (termsAt b).rounding.code, (termsAt b).suspect.code] =
      slice 0 1 b ++ slice 1 1 b ++ slice 2 1 b ++ slice 3 1 b := by
    rw [← ofNat_fieldAt (by omega), ← ofNat_fieldAt (by omega), ← ofNat_fieldAt (by omega), ← ofNat_fieldAt (by omega),
      ← saleUnitOf_code _ (Nat.not_lt.1 unit), ← resolutionOf_code _ (Nat.not_lt.1 resolution),
      ← roundingOf_code _ (Nat.not_lt.1 rounding), ← suspectModeOf_code _ (Nat.not_lt.1 suspect)]
    rfl
  unfold Terms.bytes
  rw [classes, codes]
  simp only [termsAt]
  rw [bytesOf_fieldAt (by omega), bytesOf_fieldAt (by omega), bytesOf_fieldAt (by omega), bytesOf_fieldAt (by omega),
    bytesOf_fieldAt (by omega), slice_append 0 1 1, slice_append 0 2 1, slice_append 0 3 1, slice_append 0 4 2, slice_append 0 6 2,
    slice_append 0 8 1, slice_append 0 9 1, slice_append 0 10 4, slice_append 0 14 96]
  exact slice_all whole

theorem headEntryAt_bytes (whole : b.length = 80) (passed : headsRefusal b = none) {n : Nat} (inside : n < 4) :
    (headEntryAt b n).bytes = slice (0 + 20 * n) 20 b := by
  have enable : ¬ 1 < fieldAt (20 * n) 1 b := headsBad_of_passed passed (n, 1) (by interval_cases n <;> decide)
  unfold HeadEntry.bytes
  simp only [headEntryAt]
  rw [indication_code _ (Nat.not_lt.1 enable), ofNat_fieldAt (by omega), bytesOf_fieldAt (by omega), bytesOf_fieldAt (by omega),
    bytesOf_fieldAt (by omega), bytesOf_fieldAt (by omega), bytesOf_fieldAt (by omega), bytesOf_fieldAt (by omega),
    bytesOf_fieldAt (by omega), bytesOf_fieldAt (by omega), Nat.zero_add]
  simp only [slice_append, Nat.reduceAdd]

theorem headsAt_bytes (whole : b.length = 80) (passed : headsRefusal b = none) : (headsAt b).flatMap HeadEntry.bytes = b := by
  rw [headsAt, List.flatMap_map]
  refine (List.flatMap_congr fun n there => ?_).trans ((flatMap_slice 0 20 b 4).trans (slice_all whole))
  exact headEntryAt_bytes whole passed (List.mem_range.1 there)

theorem inputEntryAt_bytes (whole : b.length = 40) (passed : inputsRefusal b = none) {n : Nat} (inside : n < 8) :
    (inputEntryAt b n).bytes = slice (0 + 5 * n) 5 b := by
  have function : ¬ 3 < fieldAt (5 * n) 1 b := inputsBad_of_passed passed (n, 1) (by interval_cases n <;> decide)
  have activeLow : ¬ 1 < fieldAt (5 * n + 1) 1 b := inputsBad_of_passed passed (n, 2) (by interval_cases n <;> decide)
  have levelMode : ¬ 1 < fieldAt (5 * n + 2) 1 b := inputsBad_of_passed passed (n, 3) (by interval_cases n <;> decide)
  have enable : ¬ 1 < fieldAt (5 * n + 3) 1 b := inputsBad_of_passed passed (n, 4) (by interval_cases n <;> decide)
  have codes : [(inputEntryAt b n).function.code, indication (inputEntryAt b n).activeLow, indication (inputEntryAt b n).levelMode,
      indication (inputEntryAt b n).enable] =
      slice (5 * n) 1 b ++ slice (5 * n + 1) 1 b ++ slice (5 * n + 2) 1 b ++ slice (5 * n + 3) 1 b := by
    rw [← ofNat_fieldAt (by omega), ← ofNat_fieldAt (by omega), ← ofNat_fieldAt (by omega), ← ofNat_fieldAt (by omega),
      ← inputFunctionOf_code _ (Nat.not_lt.1 function), ← indication_code _ (Nat.not_lt.1 activeLow),
      ← indication_code _ (Nat.not_lt.1 levelMode), ← indication_code _ (Nat.not_lt.1 enable)]
    rfl
  unfold InputEntry.bytes
  rw [codes]
  simp only [inputEntryAt]
  rw [bytesOf_fieldAt (by omega), Nat.zero_add]
  simp only [slice_append, Nat.reduceAdd]

theorem inputsAt_bytes (whole : b.length = 40) (passed : inputsRefusal b = none) : (inputsAt b).flatMap InputEntry.bytes = b := by
  rw [inputsAt, List.flatMap_map]
  refine (List.flatMap_congr fun n there => ?_).trans ((flatMap_slice 0 5 b 8).trans (slice_all whole))
  exact inputEntryAt_bytes whole passed (List.mem_range.1 there)

end

/-! ### The fields that the entries take -/

theorem getElem?_map_range {α : Type} {f : Nat → α} {m k : Nat} {a : α} (there : ((List.range m).map f)[k]? = some a) : a = f k := by
  rw [List.getElem?_map, Option.map_eq_some_iff] at there
  obtain ⟨i, place, rfl⟩ := there
  obtain ⟨inside, rfl⟩ := List.getElem?_eq_some_iff.1 place
  rw [List.getElem_range]

theorem packSlotOf_val : ∀ n : Fin 4, (packSlotOf n.val).getD none = some n := by decide

theorem classAt_fields (b : List Byte) (k : Nat) :
    (classAt b k).low = fieldAt (14 + 12 * k) 4 b ∧ (classAt b k).high = fieldAt (18 + 12 * k) 4 b ∧
      (classAt b k).face = fieldAt (22 + 12 * k) 1 b ∧ (classAt b k).force = fieldAt (23 + 12 * k) 1 b ∧
      (classAt b k).target = fieldAt (25 + 12 * k) 1 b ∧ (fieldAt (24 + 12 * k) 1 b = 255 → (classAt b k).pack = none) ∧
      ∀ n : Fin 4, fieldAt (24 + 12 * k) 1 b = n.val → (classAt b k).pack = some n := by
  have offset (o : Nat) : classOffset k o = 14 + o + 12 * k := by
    unfold classOffset
    omega
  simp only [classAt, offset, true_and]
  refine ⟨fun none => ?_, fun n slot => ?_⟩
  · rw [none]
    rfl
  · rw [slot, packSlotOf_val]

/-- Settles O47: tables that pass their checks are read back as they were loaded, field by field. -/
theorem loadedTablesReadBackAsLoaded : Obligations.LoadedTablesReadBackAsLoaded := by
  refine ⟨fun b => termsAt_bytes, fun b => headsAt_bytes, fun b => inputsAt_bytes, fun b => ?_, fun b n inside => ?_, fun b n e there => ?_⟩
  · refine ⟨rfl, rfl, rfl, rfl, rfl, by simp [termsAt], ?_, ?_, ?_, ?_, ?_, ?_, ?_, ?_, ?_, ?_, ?_, ?_, ?_, fun k c there => ?_⟩
    case refine_14 => exact getElem?_map_range there ▸ classAt_fields b k
    all_goals
      intro value
      simp only [termsAt, value]
      rfl
  · simp [headsAt, headEntryAt, inside]
  · rw [getElem?_map_range there]
    refine ⟨rfl, rfl, rfl, rfl, ?_, ?_, ?_, ?_⟩
    all_goals
      intro value
      simp only [inputEntryAt, value]
      rfl

end Sys2Proof.Machine
end

section
/-!
SUPPORT. The reservations of the request decoder (R212, R214): what the tracker does between lines neither reads nor changes their count.
-/

namespace Sys2Proof.Machine

/-- The device with another count of reservations. -/
def Device.reserving (k : Nat) (d : Device) : Device := { d with dec := { d.dec with reservations := k } }

section
variable (k : Nat) (d : Device)

/-! ### The link and the packs -/

theorem Device.offerReplyPlace_reserving : (d.reserving k).offerReplyPlace = d.offerReplyPlace.reserving k := by
  unfold Device.offerReplyPlace
  rw [show (d.reserving k).dec.owed = d.dec.owed from rfl]
  split <;> rfl

theorem Device.sendNext_reserving : (d.reserving k).sendNext = d.sendNext.reserving k := by
  unfold Device.sendNext Device.sendReplyPart
  rw [show (d.reserving k).lnk = d.lnk from rfl]
  split
  · dsimp only
    split
    · exact Device.offerReplyPlace_reserving k { d with lnk := _ }
    · rfl
  · repeat' split
    all_goals rfl

theorem Device.wakeTx_reserving : (d.reserving k).wakeTx = d.wakeTx.reserving k := by
  unfold Device.wakeTx
  rw [show (d.reserving k).lnk = d.lnk from rfl]
  split
  · exact Device.sendNext_reserving k d
  · rfl

theorem Device.placeReport_reserving (f : Frame) : (d.reserving k).placeReport f = (d.placeReport f).reserving k := by
  unfold Device.placeReport
  rw [show (d.reserving k).reportRoom = d.reportRoom from rfl]
  split
  · exact Device.wakeTx_reserving k { d with lnk := _ }
  · rfl

theorem Device.askPackPlace_reserving (n : Fin 4) : (d.reserving k).askPackPlace n = (d.askPackPlace n).reserving k := by
  unfold Device.askPackPlace
  rw [show (d.reserving k).slot n = d.slot n from rfl, show (d.reserving k).reportRoom = d.reportRoom from rfl]
  split
  · split
    · exact Device.placeReport_reserving k (d.setSlot n _) _
    · rfl
  · rfl

theorem Device.closePack_reserving (n : Fin 4) (flags : CloseFlags) :
    (d.reserving k).closePack n flags = (d.closePack n flags).reserving k := by
  unfold Device.closePack
  rw [show (d.reserving k).slot n = d.slot n from rfl]
  split
  · exact Device.askPackPlace_reserving k (d.setSlot n _) n
  · rfl

theorem Device.closeAtTarget_reserving (n : Fin 4) : (d.reserving k).closeAtTarget n = (d.closeAtTarget n).reserving k := by
  unfold Device.closeAtTarget
  rw [show (d.reserving k).slot n = d.slot n from rfl]
  split
  · split
    · rfl
    · exact Device.closePack_reserving k d n _
  · rfl

theorem Device.feedPack_reserving (n : Fin 4) (f : PackFeed) : (d.reserving k).feedPack n f = (d.feedPack n f).reserving k := by
  unfold Device.feedPack
  rw [show (d.reserving k).slot n = d.slot n from rfl]
  split
  · exact Device.closeAtTarget_reserving k { d with pku := _ } n
  · exact Device.closeAtTarget_reserving k (d.setSlot n _) n

theorem Device.feedHide_reserving (t : Terms) (r : HideRecord) : (d.reserving k).feedHide t r = (d.feedHide t r).reserving k := by
  unfold Device.feedHide
  repeat' split
  · rfl
  · exact Device.feedPack_reserving k d _ _
  all_goals rfl

/-! ### Records and heads -/

theorem Device.askHidePlace_reserving (slot : Nat) : (d.reserving k).askHidePlace slot = (d.askHidePlace slot).reserving k := by
  unfold Device.askHidePlace Device.reportHide
  rw [show (d.reserving k).record slot = d.record slot from rfl, show (d.reserving k).reportRoom = d.reportRoom from rfl]
  split
  · split
    · dsimp only
      rw [Device.placeReport_reserving]
      rfl
    · rfl
  · rfl

theorem Device.startSetting_reserving (n : Fin 4) (atTick : Bool) :
    (d.reserving k).startSetting n atTick = (d.startSetting n atTick).reserving k := by
  unfold Device.startSetting
  rw [show (d.reserving k).head n = d.head n from rfl]
  dsimp only
  split
  · rfl
  · rw [show (d.reserving k).isFaulted = d.isFaulted from rfl]
    split <;> rfl

theorem Device.admitEntry_reserving (n : Fin 4) (e : StampEntry) :
    (d.reserving k).admitEntry n e = (d.admitEntry n e).reserving k :=
  Device.startSetting_reserving k (d.setHead n { d.head n with queue := placeEntry e (d.head n).queue }) n false

theorem Device.askAdmission_reserving (t : Terms) (slot : Nat) (r : HideRecord) (a : Anchor) (n : Fin 4) :
    (d.reserving k).askAdmission t slot r a n = (d.askAdmission t slot r a n).reserving k := by
  unfold Device.askAdmission
  dsimp only
  rw [show (d.reserving k).head n = d.head n from rfl, show (d.reserving k).headEntry n = d.headEntry n from rfl,
    show (d.reserving k).bpu = d.bpu from rfl]
  split
  · rfl
  · exact Device.admitEntry_reserving k (d.setRecord slot _) n _

theorem Device.stampDecision_reserving (t : Terms) (slot : Nat) (r : HideRecord) :
    (d.reserving k).stampDecision t slot r = (d.stampDecision t slot r).reserving k := by
  unfold Device.stampDecision
  split
  · rfl
  · split
    · rfl
    · rw [show (d.reserving k).assignHead = d.assignHead from rfl]
      split
      · rfl
      · exact Device.askAdmission_reserving k d t slot r _ _

/-! ### Offers and walks -/

theorem Device.takeOffer_reserving (t : Terms) (slot : Nat) (o : Region) :
    (d.reserving k).takeOffer t slot o = (d.takeOffer t slot o).reserving k := by
  unfold Device.takeOffer
  dsimp only
  rw [show (d.reserving k).makeRecord t o = d.makeRecord t o from rfl,
    show ({ d.reserving k with hev := { (d.reserving k).hev with nextHide := (d.reserving k).hev.nextHide + 1 } } : Device) =
      ({ d with hev := { d.hev with nextHide := d.hev.nextHide + 1 } } : Device).reserving k from rfl,
    Device.stampDecision_reserving, Device.feedHide_reserving, Device.askHidePlace_reserving]

theorem Device.evaluate_reserving (o : Region) :
    (d.reserving k).evaluate o = ((d.evaluate o).1, (d.evaluate o).2.reserving k) := by
  unfold Device.evaluate
  rw [show (d.reserving k).hev = d.hev from rfl]
  split
  · rfl
  · split
    · rfl
    · split
      · rfl
      · exact congrArg (Prod.mk _) (Device.takeOffer_reserving k d _ _ o)

theorem Device.offer_reserving (i : Nat) : (d.reserving k).offer i = (d.offer i).reserving k := by
  unfold Device.offer
  rw [show (d.reserving k).rtk = d.rtk from rfl, Device.evaluate_reserving]
  cases d.evaluate (d.rtk.region i) with
  | mk answer e => cases answer <;> rfl

theorem Device.offers_reserving (entries : List Nat) :
    entries.foldl Device.offer (d.reserving k) = (entries.foldl Device.offer d).reserving k := by
  induction entries generalizing d with
  | nil => rfl
  | cons i rest ih => rw [List.foldl_cons, List.foldl_cons, Device.offer_reserving, ih]

theorem Device.offerWalk_reserving : (d.reserving k).offerWalk = d.offerWalk.reserving k :=
  Device.offers_reserving k { d with rtk := { d.rtk with retryPending := false } } _

theorem Device.flushRegions_reserving : (d.reserving k).flushRegions = d.flushRegions.reserving k := by
  unfold Device.flushRegions
  dsimp only
  rw [show ({ d.reserving k with rtk := ((d.reserving k).rtk.stage6 (d.reserving k).rtk.flushLine).stage7 true } : Device) =
      ({ d with rtk := (d.rtk.stage6 d.rtk.flushLine).stage7 true } : Device).reserving k from rfl, Device.offerWalk_reserving]
  rfl

/-- A waiting request is performed whatever the count of reservations (R214). -/
theorem Device.performWaiting_reserving (w : Waiting) :
    (d.reserving k).performWaiting w = ((d.performWaiting w).1, (d.performWaiting w).2.reserving k) := by
  cases w with
  | flush =>
    show (d.reserving k).performFlush = (d.performFlush.1, d.performFlush.2.reserving k)
    unfold Device.performFlush
    rw [show (d.reserving k).lct = d.lct from rfl, show (d.reserving k).lcn = d.lcn from rfl, Device.flushRegions_reserving]
    repeat' split
    all_goals rfl
  | lineReset =>
    show (d.reserving k).performLineReset = (d.performLineReset.1, d.performLineReset.2.reserving k)
    unfold Device.performLineReset
    rw [show (d.reserving k).lct = d.lct from rfl]
    split <;> rfl
  | readRegions segment =>
    show (d.reserving k).performReadRegions segment =
      ((d.performReadRegions segment).1, (d.performReadRegions segment).2.reserving k)
    unfold Device.performReadRegions
    split <;> rfl

end

/-- The count of reservations after a waiting request is performed is that before (R214). -/
theorem Device.performWaiting_reservations (w : Waiting) (d : Device) :
    (d.performWaiting w).2.dec.reservations = d.dec.reservations := by
  have same := Device.performWaiting_reserving d.dec.reservations d w
  have stands : d.reserving d.dec.reservations = d := rfl
  rw [stands] at same
  have second := congrArg (fun p : Reply × Device => p.2.dec.reservations) same
  exact second

end Sys2Proof.Machine
end

section
/-!
PROOF. Requests that wait for the tracker (R47, R65, R67, R69, R210, R214, R216): when they are served, and what each does.
-/

namespace Sys2Proof.Machine

/-! ### The tracker between lines (R47, R65, R214) -/

section
variable {d : Device}

theorem Device.walkPending_of_done (n : Nat) (done : d.rtk.retryPending = false) : d.walkPending n = d := by
  cases n with
  | zero => rfl
  | succ n => exact if_neg (by simp [done])

theorem Device.wait_of_place {w : Waiting} (place : d.noReplyPlace = false) :
    d.wait w =
      let v : Device := { d with
        dec := { d.dec with reservations := d.dec.reservations + 1 }
        rtk := { d.rtk with waiting := d.rtk.waiting ++ [w] } }
      if v.betweenLines then v.settle else v := if_neg (by simp [place])

theorem Device.serveOldest_eq {w : Waiting} {rest : List Waiting} (waits : d.rtk.waiting = w :: rest) :
    d.serveOldest =
      let p := Device.performWaiting w { d with rtk := { d.rtk with waiting := rest } }
      Device.placeReply (p.1.message w.kind) { p.2 with dec := { p.2.dec with reservations := p.2.dec.reservations - 1 } } := by
  unfold Device.serveOldest
  rw [waits]
  rfl

/-- A request that finds the tracker between lines with nothing to do is performed at once, as if it had taken no reservation. -/
theorem Device.settle_of_idle {w : Waiting} (empty : d.rtk.waiting = []) (done : d.rtk.retryPending = false) :
    Device.settle { d with
      dec := { d.dec with reservations := d.dec.reservations + 1 }
      rtk := { d.rtk with waiting := d.rtk.waiting ++ [w] } } =
      (Device.placeReply ((d.performWaiting w).1.message w.kind) (d.performWaiting w).2).walkPending 65 := by
  have taken : ({ d with
      dec := { d.dec with reservations := d.dec.reservations + 1 }
      rtk := { d.rtk with waiting := [] } } : Device) = d.reserving (d.dec.reservations + 1) := by
    rw [← empty]
    rfl
  have served : Device.serveOldest { d with
      dec := { d.dec with reservations := d.dec.reservations + 1 }
      rtk := { d.rtk with waiting := [w] } } = Device.placeReply ((d.performWaiting w).1.message w.kind) (d.performWaiting w).2 := by
    refine (Device.serveOldest_eq (w := w) (rest := []) rfl).trans ?_
    show Device.placeReply (Reply.message w.kind (Device.performWaiting w { d with
      dec := { d.dec with reservations := d.dec.reservations + 1 }, rtk := { d.rtk with waiting := [] } }).1) _ = _
    dsimp only
    rw [taken, Device.performWaiting_reserving]
    have stands : (d.performWaiting w).2.reserving d.dec.reservations = (d.performWaiting w).2 := by
      rw [← Device.performWaiting_reservations w d]
      rfl
    exact congrArg (Device.placeReply _) stands
  rw [empty, List.nil_append, ← served]
  unfold Device.settle
  show (match (Device.walkPending 65 _).rtk.waiting with | [] => _ | _ => _) = _
  rw [Device.walkPending_of_done 65 (by exact done)]
  rfl

end

end Sys2Proof.Machine
end

section
/-!
PROOF. What the requests that wait for the tracker do (R67, R69, R210, R216), and when they are served (R47, R65, R214).
-/

namespace Sys2Proof.Machine

/-! ### A region as READ of REGIONS shows it (R210) -/

/-- The numbers of a region's layout. -/
def Region.fields (r : Region) : List (Nat × Nat) :=
  [(1, r.kind.code.toNat), (1, r.state.code.toNat), (1, r.parent),
    (1, bitsOf [r.flags.exhausted, r.flags.edge, r.flags.holeOverflow, r.flags.truncated, r.flags.overrange, r.openTop,
      r.anchor.isSome]), (4, r.firstLine.toNat), (4, r.lastLine.toNat), (2, r.minCell), (2, r.maxCell), (8, r.area), (6, r.born.toNat),
    (4, r.epoch.toNat), (1, r.holes.length), (2, r.holeOverCount), (2, r.interpolated), (4, r.anchor.elim 0 fun a => a.line.toNat),
    (4, r.anchor.elim 0 fun a => a.width), (2, r.anchor.elim 0 fun a => a.cell), (6, r.anchor.elim 0 fun a => a.pos.toNat), (1, 0)]

theorem Region.bytes_eq_spell (r : Region) : r.bytes = spell r.fields := by
  have anchor : anchorBytes r.anchor = spell [(4, r.anchor.elim 0 fun a => a.line.toNat), (4, r.anchor.elim 0 fun a => a.width),
      (2, r.anchor.elim 0 fun a => a.cell), (6, r.anchor.elim 0 fun a => a.pos.toNat)] := by
    cases r.anchor <;> simp [anchorBytes, spell]
  unfold Region.bytes Region.fields
  rw [anchor]
  simp only [spell, List.flatMap_cons, List.flatMap_nil, List.append_nil, bytesOf_one]
  simp only [List.append_assoc, List.cons_append, List.nil_append]
  simp only [BitVec.ofNat_toNat, BitVec.setWidth_eq]
  rfl

theorem Region.shows_bytes (r : Region) : Shows r.bytes (placed 0 r.fields) := (StandsAt.whole _).shows r.bytes_eq_spell

theorem Region.bytes_length (r : Region) : r.bytes.length = 56 := by
  rw [r.bytes_eq_spell, spell_length]
  simp [Region.fields]

theorem RegionKind.code_toNat (kind : RegionKind) : kind.code.toNat = if kind = .leather then 0 else 1 := by cases kind <;> rfl

/-- The number of a state. -/
def RegionState.number : RegionState → Nat
  | .free => 0
  | .opened => 1
  | .merged => 2
  | .closedWait => 3

theorem RegionState.code_toNat (state : RegionState) : state.code.toNat = state.number := by cases state <;> rfl

/-! ### FLUSH's closures (R67) -/

section
variable {k : Rtk}

/-- With no run on the line no gap is bounded, and no root encloses one. -/
theorem Rtk.holeRoot_of_noRuns (noRuns : k.cur.runs = []) (i : Nat) : k.holeRoot i = none := by
  refine Option.eq_none_iff_forall_ne_some.2 fun root hole => ?_
  obtain ⟨_, ⟨g, there⟩, bounds⟩ := (k.holeRoot_eq_some i root).1 hole
  obtain ⟨labels, bounded, _⟩ := bounds g there
  unfold Rtk.boundLabels at bounded
  rw [noRuns, show coveredBy [] g.first g.last = none from rfl] at bounded
  split at bounded <;> simp_all

theorem Rtk.foldl_closeGap_of_noRuns (now : Word32) (l : List Nat) :
    ∀ {k : Rtk}, k.cur.runs = [] → l.foldl (Rtk.closeGap now) k = l.foldl Rtk.release k := by
  induction l with
  | nil => exact fun _ => rfl
  | cons i l ih =>
    intro k noRuns
    rw [List.foldl_cons, List.foldl_cons, Rtk.closeGap_of_bay now (Rtk.holeRoot_of_noRuns noRuns i)]
    exact ih noRuns

/-- The tracker after FLUSH's closures, before the walk. -/
def Rtk.flushed (k : Rtk) : Rtk := { (k.stage6 k.flushLine).stage7 true with retryPending := false }

theorem Device.flushRegions_eq (d : Device) :
    d.flushRegions =
      let offered := d.rtk.flushed.walkOrder.foldl Device.offer { d with rtk := d.rtk.flushed }
      { offered with rtk := { offered.rtk with prev := ⟨[], []⟩ } } := rfl

section
variable (noRuns : k.cur.runs = [])
include noRuns

theorem Rtk.flushed_eq :
    k.flushed = { k with table := k.flushed.table, stack := k.closingGaps.reverse ++ k.stack, retryPending := false } := by
  have released : k.stage6 k.flushLine = k.closingGaps.foldl Rtk.release k := Rtk.foldl_closeGap_of_noRuns _ _ noRuns
  unfold Rtk.flushed
  rw [released, Rtk.releases_rest, Rtk.releases_stack]
  rfl

theorem Rtk.region_flushed (table : k.table.length = 64) {i : Nat} (inside : i < 64) :
    k.flushed.region i =
      Region.closeLeather k.exhaustion true (if i ∈ k.closingGaps then Region.cleared (k.region i).kind i else k.region i) := by
  have released : k.stage6 k.flushLine = k.closingGaps.foldl Rtk.release k := Rtk.foldl_closeGap_of_noRuns _ _ noRuns
  have length : (k.closingGaps.foldl Rtk.release k).table.length = 64 := by
    rw [← table]
    refine List.foldlRecOn k.closingGaps Rtk.release (motive := fun x => x.table.length = k.table.length) rfl fun x same i _ => ?_
    rw [Rtk.length_release, same]
  have exhaustion : (k.closingGaps.foldl Rtk.release k).exhaustion = k.exhaustion := by rw [Rtk.releases_rest]
  show ((k.stage6 k.flushLine).stage7 true).region i = _
  rw [released, Rtk.region_stage7 true (by rw [length]; exact inside), exhaustion, Rtk.region_releases _ (by rw [table]; exact inside)]

end

/-- An OPEN gap root that FLUSH closes. -/
def Rtk.FlushedGap (k : Rtk) (i : Nat) : Prop :=
  (k.region i).kind = .gap ∧ (k.region i).state = .opened ∧ (k.region i).touched = false ∧ ∃ g ∈ k.prev.gaps, g.label = .entry i

/-- An OPEN leather root that FLUSH closes. -/
def Rtk.FlushedLeather (k : Rtk) (i : Nat) : Prop :=
  (k.region i).kind = .leather ∧ (k.region i).state = .opened ∧ (k.region i).touched = false

theorem Rtk.mem_closingGaps_iff (k : Rtk) (i : Nat) : i ∈ k.closingGaps ↔ k.FlushedGap i :=
  (k.mem_closingGaps k.prev.gaps i).trans (by simp only [Rtk.UntouchedGap, Rtk.FlushedGap, and_assoc])

section
variable (noRuns : k.cur.runs = []) (table : k.table.length = 64) {i : Nat} (inside : i < 64)
include noRuns table inside

theorem Rtk.region_flushed_of_gap (gap : k.FlushedGap i) : k.flushed.region i = Region.cleared .gap i := by
  rw [Rtk.region_flushed noRuns table inside, if_pos ((k.mem_closingGaps_iff i).2 gap), gap.1, Region.closeLeather_eq]
  exact if_neg nofun

theorem Rtk.region_flushed_of_leather (leather : k.FlushedLeather i) :
    k.flushed.region i = { k.region i with
      state := .closedWait
      ring := []
      flags := { (k.region i).flags with
        exhausted := (k.region i).flags.exhausted || (k.region i).epoch != k.exhaustion
        truncated := true } } := by
  obtain ⟨kind, state, touched⟩ := leather
  have notGap : i ∉ k.closingGaps := fun closing => by
    have gap := ((k.mem_closingGaps_iff i).1 closing).1
    rw [kind] at gap
    exact nomatch gap
  rw [Rtk.region_flushed noRuns table inside, if_neg notGap, Region.closeLeather_eq, if_pos ⟨kind, state, touched⟩, Bool.or_true]

theorem Rtk.region_flushed_of_other (notGap : ¬ k.FlushedGap i) (notLeather : ¬ k.FlushedLeather i) :
    k.flushed.region i = k.region i := by
  rw [Rtk.region_flushed noRuns table inside, if_neg (mt (k.mem_closingGaps_iff i).1 notGap), Region.closeLeather_eq]
  exact if_neg notLeather

end

end

/-! ### FLUSH by its tests (R216) -/

section
variable {d : Device}

theorem Device.performFlush_of_line (other : d.lct.lineState ≠ .paused) : d.performWaiting .flush = (⟨.wrongState, 1, []⟩, d) :=
  if_pos other

theorem Device.performFlush_of_queue (paused : d.lct.lineState = .paused) (queued : d.lcn.queue ≠ []) :
    d.performWaiting .flush = (⟨.notNow, 0, []⟩, d) := (if_neg (not_not.2 paused)).trans (if_pos (by simp [queued]))

theorem Device.performFlush_of_done (paused : d.lct.lineState = .paused) (empty : d.lcn.queue = []) :
    d.performWaiting .flush = (⟨.ok, 0, []⟩, d.flushRegions) := (if_neg (not_not.2 paused)).trans (if_neg (by simp [empty]))

end

/-- The row of a request that waits. -/
def Waiting.row : Waiting → Instr
  | .flush => .flush
  | .lineReset => .lineReset
  | .readRegions seg => .readRegions seg

/-- The row that serves a waiting request. -/
def Waiting.serviceRow : Waiting → Instr
  | .flush => .flushService
  | .lineReset => .lineResetService
  | .readRegions _ => .readRegionsService

theorem exec_waitingRow (w : Waiting) (s : State) : exec w.row s = s.waitingRequest w := by
  cases w <;> rfl

theorem exec_serviceRow {w : Waiting} {rest : List Waiting} {s : State} (service : s.dev.InService) (idle : s.dev.rtk.work = none)
    (waits : s.dev.rtk.waiting = w :: rest) :
    exec w.serviceRow s = .next ⟨(s.dev.walkPending 65).serveOldest.askEventPlace, s.pending⟩ := by
  have between : s.dev.betweenLines = true := Option.isNone_iff_eq_none.2 idle
  have served {kind : Waiting → Bool} (named : kind w = true) : s.dev.serveKind kind = (s.dev.walkPending 65).serveOldest := by
    unfold Device.serveKind
    rw [waits]
    exact if_pos (by simp [between, named])
  cases w with
  | flush => exact State.event_of service (served (kind := Waiting.isFlush) rfl)
  | lineReset => exact State.event_of service (served (kind := Waiting.isLineReset) rfl)
  | readRegions seg => exact State.event_of service (served (kind := Waiting.isReadRegions) rfl)

/-- Settles O51: a waiting request by what the tracker does when it comes and when it is served, and by its kind. -/
theorem waitingRequestsAreServedBetweenLines : Obligations.WaitingRequestsAreServedBetweenLines := by
  refine ⟨fun w s ready => ?_, fun w rest s service idle waits => ?_, fun r => ⟨r.bytes_length, ?_, fun a anchor => ?_, fun none => ?_⟩,
    fun seg d => ⟨Device.performFlush_of_line, Device.performFlush_of_queue, fun paused empty => ?_, fun out => if_pos out,
      fun inside => if_neg (Nat.not_le.2 inside)⟩⟩
  · intro row v
    have taken := Device.wait_of_place (w := w) ready.place_free
    have came : exec row s = s.waitingRequest w := exec_waitingRow w s
    refine ⟨fun busy => ?_, fun idle => ?_, fun idle empty done => ?_⟩
    · exact came.trans (State.event_of ready.toInService (taken.trans (if_neg (mt Option.isNone_iff_eq_none.1 busy))))
    · exact came.trans (State.event_of ready.toInService (taken.trans (if_pos (Option.isNone_iff_eq_none.2 idle))))
    · refine came.trans (State.event_of ready.toInService ((taken.trans (if_pos (Option.isNone_iff_eq_none.2 idle))).trans ?_))
      exact Device.settle_of_idle (d := s.dev.heard) empty done
  · have served := exec_serviceRow service idle waits
    refine ⟨fun _ => served, fun done => served.trans ?_⟩
    rw [Device.walkPending_of_done 65 done, Device.serveOldest_eq waits]
  · have shown := r.shows_bytes
    unfold Region.fields at shown
    rw [r.kind.code_toNat, r.state.code_toNat] at shown
    refine shown.mono ?_
    simp [placed]
    rfl
  · refine r.shows_bytes.mono ?_
    simp [placed, Region.fields, anchor]
  · refine r.shows_bytes.mono ?_
    simp [placed, Region.fields, none]
  · rw [Device.performFlush_of_done paused empty]
    refine ⟨rfl, rfl, d.flushRegions_touches.weaken rfl, fun cur table => ?_⟩
    have noRuns : d.rtk.cur.runs = [] := by rw [cur]
    refine ⟨d.rtk.flushed, d.rtk.closingGaps.reverse, Rtk.flushed_eq noRuns, ?_, fun i => ?_, fun i inside => ⟨fun gap => ?_,
      fun leather => ?_, fun notGap notLeather => ?_⟩, d.flushRegions_eq⟩
    · exact List.nodup_reverse.2 (d.rtk.closingGaps_nodup d.rtk.prev.gaps)
    · exact List.mem_reverse.trans (d.rtk.mem_closingGaps_iff i)
    · exact Rtk.region_flushed_of_gap noRuns table inside gap
    · exact Rtk.region_flushed_of_leather noRuns table inside leather
    · exact Rtk.region_flushed_of_other noRuns table inside notGap notLeather

end Sys2Proof.Machine
end

section
/-!
SUPPORT. The tracker's runs and gaps (R46, R48 to R52, R55 to R57): the roots that spans reach, the entry that a run opens or continues,
and what a span adds to its root.
-/

namespace Sys2Proof.Machine

/-! ### The roots that spans reach, each once -/

/-- The values that entries of a list name, each once, in the order of their first entries. -/
def collect {α : Type} (pick : α → Option Nat) (l : List α) : List Nat :=
  l.foldl (fun acc x => (pick x).elim acc fun i => addNew i acc) []

theorem addNew_nodup {i : Nat} {l : List Nat} (once : l.Nodup) : (addNew i l).Nodup := by
  by_cases old : i ∈ l
  · rwa [addNew_of_mem old]
  · rw [addNew_of_not_mem old]
    exact List.nodup_append.2 ⟨once, List.nodup_singleton i, fun j hj k hk same => old (List.mem_singleton.1 hk ▸ same ▸ hj)⟩

section
variable {α : Type} (pick : α → Option Nat)

theorem collect_concat (l : List α) (x : α) : collect pick (l ++ [x]) = (pick x).elim (collect pick l) fun i => addNew i (collect pick l) := by
  unfold collect
  rw [List.foldl_append, List.foldl_cons, List.foldl_nil]

theorem collect_nodup (l : List α) : (collect pick l).Nodup := by
  induction l using List.reverseRecOn with
  | nil => exact .nil
  | append_singleton l x ih =>
    rw [collect_concat]
    cases pick x with
    | none => exact ih
    | some i => exact addNew_nodup ih

theorem mem_collect (l : List α) (i : Nat) : i ∈ collect pick l ↔ ∃ x ∈ l, pick x = some i := by
  induction l using List.reverseRecOn with
  | nil => simp [collect]
  | append_singleton l x ih =>
    rw [collect_concat]
    simp only [List.mem_append, List.mem_singleton, or_and_right, exists_or, exists_eq_left, ← ih]
    cases pick x with
    | none => simp
    | some j => simp [mem_addNew, eq_comm]

end

/-- The root of a span, for one that has an entry. -/
def Rtk.rootOfSpan (k : Rtk) (x : Span) : Option Nat := match x.label with | .untracked => none | .entry i => some (k.root i)

theorem Rtk.rootOfSpan_eq_some {k : Rtk} {x : Span} {i : Nat} : k.rootOfSpan x = some i ↔ ∃ j, x.label = .entry j ∧ k.root j = i := by
  unfold Rtk.rootOfSpan
  cases x.label <;> simp

theorem Rtk.touchedRoots_eq (k : Rtk) : k.touchedRoots = collect k.rootOfSpan k.cur.runs := by
  unfold Rtk.touchedRoots collect Rtk.rootOfSpan
  congr 1
  funext acc x
  cases x.label <;> rfl

theorem Rtk.rootsOver_eq (k : Rtk) (diagJoin : Bool) (spans : List Span) (first last : Nat) :
    k.rootsOver diagJoin spans first last =
      collect (fun x => if overlaps diagJoin first last x.first x.last then k.rootOfSpan x else none) spans := by
  unfold Rtk.rootsOver collect
  congr 1
  funext acc x
  cases label : x.label with
  | untracked => simp [Rtk.rootOfSpan, label]
  | entry i =>
    dsimp only
    split <;> simp [Rtk.rootOfSpan, label]

theorem overlaps_iff (diagJoin : Bool) (s e a b : Nat) :
    overlaps diagJoin s e a b = true ↔ (s ≤ b ∧ a ≤ e) ∨ (diagJoin = true ∧ (b + 1 = s ∨ e + 1 = a)) := by
  simp [overlaps]

theorem Rtk.mem_rootsOver (k : Rtk) (diagJoin : Bool) (spans : List Span) (first last i : Nat) :
    i ∈ k.rootsOver diagJoin spans first last ↔ ∃ x ∈ spans, ∃ j, x.label = .entry j ∧ k.root j = i ∧
      ((first ≤ x.last ∧ x.first ≤ last) ∨ (diagJoin = true ∧ (x.last + 1 = first ∨ last + 1 = x.first))) := by
  rw [Rtk.rootsOver_eq, mem_collect]
  refine exists_congr fun x => and_congr_right fun _ => ?_
  simp only [← overlaps_iff, ← and_assoc, exists_and_right, ← Rtk.rootOfSpan_eq_some]
  split
  · simp [*]
  · simp [*]

/-! ### Matching (R49, R57) -/

theorem coveredBy_isNone (runs : List Span) (first last : Nat) :
    (coveredBy runs first last).isNone = decide (¬ ∃ x ∈ runs, x.first ≤ first ∧ last ≤ x.last) := by
  rw [Bool.eq_iff_iff, decide_eq_true_iff]
  simp [coveredBy]

theorem gapsOf_eq (sums : List Nat) : ∀ runs : List Span, gapsOf sums runs = (runs.zip runs.tail).map fun x =>
    ⟨x.1.last + 1, x.2.first - 1, sums.getD (x.2.first - 1 + 1) 0 - sums.getD (x.1.last + 1) 0⟩
  | [] => rfl
  | [_] => rfl
  | a :: b :: rest => by
    rw [gapsOf, gapsOf_eq sums (b :: rest)]
    rfl

/-! ### The widest run of a root (R56) -/

/-- The wider of the best run so far and another of the root. -/
def widerRun (k : Rtk) (root : Nat) (best : Option Span) (s : Span) : Option Span :=
  match s.label with
  | .untracked => best
  | .entry i =>
    if k.root i = root then
      match best with
      | none => some s
      | some b => if b.width < s.width then some s else some b
    else best

/-- A run of the root. -/
def Rtk.RunOf (k : Rtk) (root : Nat) (x : Span) : Prop := ∃ j, x.label = .entry j ∧ k.root j = root

theorem widerRun_of_other {k : Rtk} {root : Nat} (best : Option Span) {x : Span} (other : ¬ k.RunOf root x) :
    widerRun k root best x = best := by
  unfold widerRun
  cases label : x.label with
  | untracked => rfl
  | entry i => exact if_neg fun same => other ⟨i, label, same⟩

theorem widerRun_of_run {k : Rtk} {root : Nat} (best : Option Span) {x : Span} (run : k.RunOf root x) :
    widerRun k root best x = best.elim (some x) fun b => if b.width < x.width then some x else some b := by
  obtain ⟨i, label, same⟩ := run
  unfold widerRun
  rw [label]
  dsimp only
  rw [if_pos same]
  cases best <;> rfl

/-- The widest of a root's runs, the leftmost of equals. -/
theorem foldl_widerRun (k : Rtk) (root : Nat) (runs : List Span) :
    (runs.foldl (widerRun k root) none = none → ∀ x ∈ runs, ¬ k.RunOf root x) ∧
    ∀ s, runs.foldl (widerRun k root) none = some s → ∃ front back, runs = front ++ s :: back ∧ k.RunOf root s ∧
      (∀ x ∈ front, k.RunOf root x → x.width < s.width) ∧ ∀ x ∈ back, k.RunOf root x → x.width ≤ s.width := by
  induction runs using List.reverseRecOn with
  | nil => exact ⟨fun _ => nofun, nofun⟩
  | append_singleton runs x ih =>
    obtain ⟨empty, widest⟩ := ih
    rw [List.foldl_append, List.foldl_cons, List.foldl_nil]
    by_cases run : k.RunOf root x
    · rw [widerRun_of_run _ run]
      cases best : runs.foldl (widerRun k root) none with
      | none =>
        refine ⟨nofun, fun s same => ?_⟩
        obtain rfl := Option.some.inj same
        exact ⟨runs, [], rfl, run, fun y there other => absurd other (empty best y there), nofun⟩
      | some b =>
        obtain ⟨front, back, parts, named, before, after⟩ := widest b best
        have bound : ∀ y ∈ runs, k.RunOf root y → y.width ≤ b.width := by
          rw [parts]
          refine List.forall_mem_append.2 ⟨fun y there other => (before y there other).le, ?_⟩
          exact List.forall_mem_cons.2 ⟨fun _ => le_rfl, after⟩
        dsimp only [Option.elim]
        split
        · rename_i wider
          refine ⟨nofun, fun s same => ?_⟩
          obtain rfl := Option.some.inj same
          exact ⟨runs, [], rfl, run, fun y there other => (bound y there other).trans_lt wider, nofun⟩
        · rename_i narrow
          refine ⟨nofun, fun s same => ?_⟩
          obtain rfl := Option.some.inj same
          refine ⟨front, back ++ [x], by simp [parts], named, before, List.forall_mem_append.2 ⟨after, ?_⟩⟩
          simpa using fun _ => Nat.not_lt.1 narrow
    · rw [widerRun_of_other _ run]
      refine ⟨fun none => List.forall_mem_append.2 ⟨empty none, by simpa using run⟩, fun s best => ?_⟩
      obtain ⟨front, back, parts, named, before, after⟩ := widest s best
      refine ⟨front, back ++ [x], by simp [parts], named, before, List.forall_mem_append.2 ⟨after, ?_⟩⟩
      simpa using fun other => absurd other run

/-! ### The survivor of a merge (R52) -/

/-- The survivor's order, as R52 states it. -/
def Rtk.Before (k : Rtk) (now : Word32) (i j : Nat) : Prop :=
  behind now (k.region j).firstLine < behind now (k.region i).firstLine ∨
    ((k.region i).firstLine = (k.region j).firstLine ∧ i < j)

theorem behind_inj {now x y : Word32} : behind now x = behind now y ↔ x = y := by
  unfold behind
  constructor
  · intro same
    have equal := BitVec.eq_of_toNat_eq same
    bv_omega
  · exact fun same => same ▸ rfl

theorem Rtk.survives_iff (k : Rtk) (now : Word32) (i j : Nat) : k.survives now i j = true ↔ k.Before now i j := by
  simp [Rtk.survives, Rtk.Before, behind_inj]

theorem Rtk.Before.trans {k : Rtk} {now : Word32} (i j n : Nat) (first : k.Before now i j) (second : k.Before now j n) :
    k.Before now i n := by
  unfold Rtk.Before at *
  rcases first with older | ⟨same, less⟩ <;> rcases second with older' | ⟨same', less'⟩
  · exact .inl (older'.trans older)
  · exact .inl (same' ▸ older)
  · exact .inl (same ▸ older')
  · exact .inr ⟨same.trans same', less.trans less'⟩

theorem Rtk.before_of_not_survives {k : Rtk} {now : Word32} {i j : Nat} (apart : i ≠ j) (other : k.survives now j i = false) :
    k.Before now i j := by
  have not : ¬ k.Before now j i := fun holds => Bool.eq_false_iff.1 other ((k.survives_iff now j i).2 holds)
  unfold Rtk.Before at *
  rw [← behind_inj (now := now)] at not ⊢
  omega

/-- The roots of a span in the survivor's order. -/
theorem Rtk.sorted_pairwise (k : Rtk) (now : Word32) {roots : List Nat} (once : roots.Nodup) :
    (sortWith (k.survives now) roots).Pairwise (k.Before now) := by
  refine sortWith_pairwise Rtk.Before.trans (once.imp fun {a x} apart => ⟨fun holds => (k.survives_iff now x a).1 holds, fun other => ?_⟩)
  exact Rtk.before_of_not_survives apart other

theorem Rtk.joinSpan_of_roots {c : LineContext} {kind : RegionKind} {first last : Nat} {openTop : Bool} {k : Rtk} {roots : List Nat}
    (some : roots ≠ []) (once : roots.Nodup) :
    ∃ survivor ∈ roots, (k.joinSpan c kind roots first last openTop).2 = .entry survivor ∧
      ∃ losers : List Nat, (survivor :: losers).Perm roots ∧ (survivor :: losers).Pairwise (k.Before c.line) ∧
        (k.joinSpan c kind roots first last openTop).1 =
          (losers.foldl (Rtk.mergeInto c survivor) k).setRegion survivor
            { (losers.foldl (Rtk.mergeInto c survivor) k).region survivor with touched := true } := by
  have sorted := k.sorted_pairwise c.line once
  have perm := sortWith_perm (before := k.survives c.line) roots
  unfold Rtk.joinSpan
  cases order : sortWith (k.survives c.line) roots with
  | nil =>
    rw [order] at perm
    exact absurd perm.symm.eq_nil some
  | cons survivor losers =>
    rw [order] at sorted perm
    exact ⟨survivor, perm.subset List.mem_cons_self, rfl, losers, perm, sorted, rfl⟩

/-! ### What a span adds (R55, R56) -/

theorem Rtk.markEdge_of_entry {k : Rtk} {s : Span} {i : Nat} (label : s.label = .entry i) :
    k.markEdge s =
      if s.first = 0 ∨ s.last = 1599 then
        k.setRegion (k.root i) { k.region (k.root i) with flags := { (k.region (k.root i)).flags with edge := true } }
      else k := by
  unfold Rtk.markEdge
  rw [label]
  simp only [Bool.or_eq_true, decide_eq_true_eq]

theorem Rtk.region_accumulate {k : Rtk} {c : LineContext} {s : Span} {i : Nat} (label : s.label = .entry i)
    (inside : k.root i < k.table.length) :
    (k.accumulate c s).region (k.root i) = (k.region (k.root i)).addSpan c s := by
  unfold Rtk.accumulate
  rw [label]
  exact Rtk.region_setRegion_same _ inside

/-- An entry that leaves the ring becomes the anchor when it is wider, wide enough and far enough from the first line (R56). -/
theorem anchorTaken_iff (c : LineContext) (r : Region) (a : Anchor) :
    anchorTaken c r a = true ↔ (∀ b, r.anchor = some b → b.width < a.width) ∧ c.minAnchor ≤ a.width ∧
      behind c.line a.line + c.setback ≤ behind c.line r.firstLine := by
  unfold anchorTaken
  cases r.anchor <;> simp [and_assoc]

theorem leaveRing_of_room {c : LineContext} {r : Region} {a : Anchor} {l : List Anchor} (room : (a :: l).length ≤ c.setback) :
    leaveRing c r (a :: l) = { r with ring := a :: l } := if_neg (Nat.not_lt.2 room)

theorem leaveRing_of_full {c : LineContext} {r : Region} {a : Anchor} {l : List Anchor} (full : c.setback < (a :: l).length) :
    leaveRing c r (a :: l) = leaveRing c (if anchorTaken c r a then { r with anchor := some a } else r) l := if_pos full

theorem Rtk.region_pushAnchor {c : LineContext} {k : Rtk} {root : Nat} {s : Span} (inside : root < k.table.length)
    (widest : k.widestRun root = some s) :
    (k.pushAnchor c root).region root =
      leaveRing c (k.region root) ((k.region root).ring ++ [⟨c.line, s.width, (s.first + s.last) / 2, c.pos⟩]) := by
  unfold Rtk.pushAnchor
  rw [widest]
  exact Rtk.region_setRegion_same _ inside

/-- A ring below S takes the newest entry. -/
theorem leaveRing_concat_of_room {c : LineContext} {r : Region} (newest : Anchor) (room : r.ring.length < c.setback) :
    leaveRing c r (r.ring ++ [newest]) = { r with ring := r.ring ++ [newest] } := by
  cases ring : r.ring with
  | nil => exact leaveRing_of_room (by rw [ring] at room; exact room)
  | cons a l => exact leaveRing_of_room (by rw [ring] at room; simpa using room)

/-- From a ring of S entries the oldest leaves, and is judged. -/
theorem leaveRing_concat_of_full {c : LineContext} {r : Region} {a : Anchor} {rest : List Anchor} (newest : Anchor)
    (ring : r.ring = a :: rest) (full : r.ring.length = c.setback) :
    leaveRing c r (r.ring ++ [newest]) =
      { (if anchorTaken c r a then { r with anchor := some a } else r) with ring := rest ++ [newest] } := by
  rw [ring] at full
  refine (congrArg (fun l => leaveRing c r (l ++ [newest])) ring).trans ?_
  refine (leaveRing_of_full (a := a) (l := rest ++ [newest]) (by simp at full ⊢; omega)).trans ?_
  cases rest with
  | nil => exact leaveRing_of_room (a := newest) (l := []) full.le
  | cons b l => exact leaveRing_of_room (a := b) (l := l ++ [newest]) (by simpa using full.le)

end Sys2Proof.Machine
end

section
/-!
PROOF. The tracker's runs (R46 to R58): merging of two entries, and the obligation on runs that open, continue, merge and accumulate.
-/

namespace Sys2Proof.Machine

/-! ### Holes taken in by closure (R53) -/

section
variable {α : Type} {before : α → α → Bool}

theorem sublist_insertAfterEqual (x : α) (l : List α) : l.Sublist (insertAfterEqual before x l) := by
  induction l with
  | nil => exact List.nil_sublist _
  | cons a l ih =>
    unfold insertAfterEqual
    split
    · exact List.sublist_cons_self x (a :: l)
    · exact ih.cons_cons a

theorem sublist_insertAll (l : List α) : ∀ acc : List α, acc.Sublist (l.foldl (fun acc x => insertAfterEqual before x acc) acc) := by
  induction l with
  | nil => exact fun acc => .refl acc
  | cons x l ih => exact fun acc => (sublist_insertAfterEqual x acc).trans (ih _)

/-- An element that none of those to come precedes stays in front of them. -/
theorem insertAll_cons {a : α} (l : List α) : ∀ acc : List α, (∀ x ∈ l, before x a = false) →
    l.foldl (fun acc x => insertAfterEqual before x acc) (a :: acc) = a :: l.foldl (fun acc x => insertAfterEqual before x acc) acc := by
  induction l with
  | nil => exact fun _ _ => rfl
  | cons x l ih =>
    intro acc passes
    obtain ⟨first, rest⟩ := List.forall_mem_cons.1 passes
    have behind' : insertAfterEqual before x (a :: acc) = a :: insertAfterEqual before x acc := if_neg (by simp [first])
    rw [List.foldl_cons, List.foldl_cons, behind']
    exact ih _ rest

end

/-- Elements in descending order of a key, inserted one after another behind equals, are merged. -/
theorem insertAll_eq_merge {α : Type} {key : α → Nat} {mine theirs : List α} (sorted : theirs.Pairwise fun x y => key y ≤ key x) :
    theirs.foldl (fun acc x => insertAfterEqual (fun x y => decide (key y < key x)) x acc) mine =
      mine.merge theirs fun x y => decide (key y ≤ key x) := by
  induction theirs generalizing mine with
  | nil => simp
  | cons y theirs ih =>
    obtain ⟨first, rest⟩ := List.pairwise_cons.1 sorted
    induction mine with
    | nil =>
      rw [List.foldl_cons, List.nil_merge]
      refine (insertAll_cons theirs [] fun x there => decide_eq_false (Nat.not_lt.2 (first x there))).trans ?_
      rw [ih rest, List.nil_merge]
    | cons x mine ihMine =>
      rw [List.cons_merge_cons]
      by_cases older : key y ≤ key x
      · rw [if_pos (decide_eq_true older), ← ihMine]
        refine insertAll_cons (y :: theirs) mine (List.forall_mem_cons.2 ⟨decide_eq_false (Nat.not_lt.2 older), fun z there => ?_⟩)
        exact decide_eq_false (Nat.not_lt.2 ((first z there).trans older))
      · rw [if_neg (by simpa using older), ← ih rest, List.foldl_cons]
        have inFront : insertAfterEqual (fun x y => decide (key y < key x)) y (x :: mine) = y :: x :: mine :=
          if_pos (decide_eq_true (Nat.lt_of_not_le older))
        rw [inFront]
        exact insertAll_cons theirs (x :: mine) fun z there => decide_eq_false (Nat.not_lt.2 (first z there))

theorem holeAreas_eq_sum (l : List Hole) : holeAreas l = (l.map Hole.area).sum := by
  unfold holeAreas
  rw [← List.foldl_map (f := Hole.area) (g := fun acc a => acc + a), ← List.sum_eq_foldl]

/-- The holes of two entries as one list (R53). -/
theorem mergeHoles_spec (now : Word32) (mine theirs : List Hole) :
    (mergeHoles now mine theirs).Perm (mine ++ theirs) ∧ mine.Sublist (mergeHoles now mine theirs) ∧
      (theirs.Pairwise (fun x y => behind now y.line ≤ behind now x.line) →
        mergeHoles now mine theirs = mine.merge theirs fun x y => decide (behind now y.line ≤ behind now x.line)) :=
  ⟨(insertAll_perm theirs mine).trans List.perm_append_comm, sublist_insertAll theirs mine,
    fun sorted => insertAll_eq_merge (key := fun h : Hole => behind now h.line) sorted⟩

/-! ### Rings taken in line by line (R54) -/

/-- A ring's entries rise from line to line. -/
def Rises (now : Word32) (l : List Anchor) : Prop := l.Pairwise fun x y => behind now y.line < behind now x.line

section
variable {now : Word32}

theorem Rises.line_ne {l : List Anchor} {a : Anchor} (h : Rises now (a :: l)) : ∀ y ∈ l, y.line ≠ a.line := fun y there same => by
  have less := (List.pairwise_cons.1 h).1 y there
  rw [same] at less
  exact lt_irrefl _ less

/-- What a ring holds once an entry is taken in: of two of one line, the wider. -/
theorem mem_ringTake {x : Anchor} {l : List Anchor} (h : Rises now l) (y : Anchor) :
    y ∈ ringTake now x l ↔
      (y ∈ l ∧ (y.line = x.line → x.width ≤ y.width)) ∨ (y = x ∧ ∀ z ∈ l, z.line = x.line → z.width < x.width) := by
  induction l with
  | nil => simp [ringTake]
  | cons a l ih =>
    obtain ⟨first, rest⟩ := List.pairwise_cons.1 h
    have apart := h.line_ne
    unfold ringTake
    by_cases same : a.line = x.line
    · have others : ∀ z ∈ l, z.line ≠ x.line := fun z there => same ▸ apart z there
      rw [if_pos same]
      split <;> grind
    · rw [if_neg same]
      by_cases later : behind now a.line < behind now x.line
      · have others : ∀ z ∈ l, z.line ≠ x.line := fun z there equal => by
          have less := first z there
          rw [equal] at less
          exact lt_asymm less later
        rw [if_pos later]
        grind
      · rw [if_neg later]
        have inner := ih rest
        grind

theorem ringTake_rises {x : Anchor} {l : List Anchor} (h : Rises now l) : Rises now (ringTake now x l) := by
  induction l with
  | nil => exact List.pairwise_singleton _ _
  | cons a l ih =>
    obtain ⟨first, rest⟩ := List.pairwise_cons.1 h
    unfold ringTake
    by_cases same : a.line = x.line
    · rw [if_pos same]
      refine List.pairwise_cons.2 ⟨fun y there => ?_, rest⟩
      have less := first y there
      split
      · rwa [← same]
      · exact less
    · rw [if_neg same]
      by_cases later : behind now a.line < behind now x.line
      · rw [if_pos later]
        exact List.pairwise_cons.2 ⟨List.forall_mem_cons.2 ⟨later, fun y there => (first y there).trans later⟩, h⟩
      · rw [if_neg later]
        refine List.pairwise_cons.2 ⟨fun y there => ?_, ih rest⟩
        rcases (mem_ringTake rest y).1 there with ⟨old, -⟩ | ⟨rfl, -⟩
        · exact first y old
        · exact lt_of_le_of_ne (Nat.not_lt.1 later) fun equal => same (behind_inj.1 equal).symm

/-- The merge of two rings: of two entries of one line the wider, the first ring's when equal. -/
theorem mergeRings_spec {theirs : List Anchor} : ∀ {mine : List Anchor}, Rises now mine → Rises now theirs →
    Rises now (mergeRings now mine theirs) ∧ ∀ x, x ∈ mergeRings now mine theirs ↔
      (x ∈ mine ∧ ∀ y ∈ theirs, y.line = x.line → y.width ≤ x.width) ∨
        (x ∈ theirs ∧ ∀ y ∈ mine, y.line = x.line → y.width < x.width) := by
  induction theirs with
  | nil => exact fun rises _ => ⟨rises, fun x => by simp [mergeRings]⟩
  | cons h theirs ih =>
    intro mine rises others
    have apart := others.line_ne
    obtain ⟨merged, members⟩ := ih (ringTake_rises (x := h) rises) (List.pairwise_cons.1 others).2
    refine ⟨merged, fun x => (members x).trans ?_⟩
    simp only [mem_ringTake rises, List.mem_cons, forall_eq_or_imp]
    grind

end

/-! ### Two entries merged (R52 to R54, R58) -/

section
variable {c : LineContext} {k : Rtk} {i j : Nat}

theorem Rtk.mergeInto_eq : k.mergeInto c i j =
    (k.setRegion i ((k.region i).absorb c.line k.exhaustion (k.region j))).setRegion j
      { k.region j with state := .merged, parent := i } := rfl

theorem Rtk.region_mergeInto_loser (inside : j < k.table.length) :
    (k.mergeInto c i j).region j = { k.region j with state := .merged, parent := i } := by
  rw [Rtk.mergeInto_eq]
  exact Rtk.region_setRegion_same _ (by rw [Rtk.setRegion, List.length_set]; exact inside)

theorem Rtk.region_mergeInto_survivor (apart : i ≠ j) (inside : i < k.table.length) :
    (k.mergeInto c i j).region i = (k.region i).absorb c.line k.exhaustion (k.region j) := by
  rw [Rtk.mergeInto_eq, Rtk.region_setRegion_ne _ _ apart, Rtk.region_setRegion_same _ inside]

theorem Rtk.region_mergeInto_other {n : Nat} (notSurvivor : n ≠ i) (notLoser : n ≠ j) :
    (k.mergeInto c i j).region n = k.region n := by
  rw [Rtk.mergeInto_eq, Rtk.region_setRegion_ne _ _ notLoser, Rtk.region_setRegion_ne _ _ notSurvivor]

end

/-- An entry that is its own parent is its root. -/
theorem Rtk.root_of_self {k : Rtk} {i : Nat} (self : (k.region i).parent = i) : k.root i = i := if_pos self

/-- An entry whose parent is a root has that root. -/
theorem Rtk.root_of_parent {k : Rtk} {i j : Nat} (apart : i ≠ j) (parent : (k.region j).parent = i) (self : (k.region i).parent = i) :
    k.root j = i := by
  have first : k.root j = rootOf k.table 63 (k.region j).parent := if_neg fun same => apart (parent.symm.trans same)
  rw [first, parent]
  exact if_pos self

/-- The sums and flags of the holes beyond the twelfth (R53). -/
theorem Region.absorb_holes (now exhaustion : Word32) (a b : Region) :
    let all := mergeHoles now a.holes b.holes
    let r := a.absorb now exhaustion b
    let excess := a.holeOverSum + b.holeOverSum + ((all.drop 12).map Hole.area).sum
    let count := a.holeOverCount + b.holeOverCount + (all.length - 12)
    r.holeOverSum = min excess (2 ^ 64 - 1) ∧ r.holeOverCount = min count 65535 ∧
      r.flags.holeOverflow = (a.flags.holeOverflow || b.flags.holeOverflow || decide (0 < count)) ∧
      r.flags.overrange = (a.flags.overrange || b.flags.overrange || decide (2 ^ 64 - 1 < a.area + b.area) ||
        decide (2 ^ 64 - 1 < excess)) := by
  intro all r excess count
  have sum : a.holeOverSum + b.holeOverSum + holeAreas (all.drop 12) = excess := by rw [holeAreas_eq_sum]
  have total : a.holeOverCount + (b.holeOverCount + (all.drop 12).length) = count := by
    rw [List.length_drop]
    exact (Nat.add_assoc _ _ _).symm
  have some : (0 < min count 65535) = (0 < count) := by
    rw [eq_iff_iff]
    omega
  refine ⟨?_, ?_, ?_, ?_⟩
  · rw [← sum]
    rfl
  · rw [← total]
    rfl
  · show (_ || decide (0 < min (a.holeOverCount + (b.holeOverCount + (all.drop 12).length)) 65535)) = _
    simp only [total, some]
    rfl
  · rw [← sum]
    rfl

theorem widerAnchor_none_right (a : Option Anchor) : widerAnchor a none = a := by cases a <;> rfl

/-- Settles O20: the roots, labels and entries of runs and gaps, a merge by what the survivor holds, and what a span adds to its root. -/
theorem runsOpenContinueMergeAndAccumulate : Obligations.RunsOpenContinueMergeAndAccumulate := by
  refine ⟨fun diagJoin spans first last k => ⟨?_, k.mem_rootsOver diagJoin spans first last⟩, fun c k r => ⟨rfl, ?_⟩, gapsOf_eq,
    fun k s i label inside => ⟨fun edge => ?_, fun notFirst notLast => ?_⟩,
    fun k => ⟨?_, fun i => ?_, fun i => rfl, fun root s widest => ?_⟩,
    fun c kind first last openTop k => ⟨fun i rest stack inside => ?_, fun stack => ?_⟩,
    fun c kind first last openTop k roots some once => Rtk.joinSpan_of_roots some once,
    fun c k i j apart inside inside' self => ?_, fun c k s i label inside => Rtk.region_accumulate label inside,
    fun c k root s inside widest => ⟨fun room => ?_, fun a rest ring full => ⟨fun taken => ?_, fun other => ?_⟩⟩⟩
  · rw [Rtk.rootsOver_eq]
    exact collect_nodup _ _
  · rw [← coveredBy_isNone]
    rfl
  · exact (Rtk.markEdge_of_entry label).trans (if_pos edge)
  · exact (Rtk.markEdge_of_entry label).trans (if_neg (not_or.2 ⟨notFirst, notLast⟩))
  · rw [Rtk.touchedRoots_eq]
    exact collect_nodup _ _
  · rw [Rtk.touchedRoots_eq, mem_collect]
    simp only [Rtk.rootOfSpan_eq_some]
  · exact (foldl_widerRun k root k.cur.runs).2 s widest
  · show k.allocate c kind first last openTop = _
    unfold Rtk.allocate
    rw [stack]
    rfl
  · show k.allocate c kind first last openTop = _
    unfold Rtk.allocate
    rw [stack]
  · intro m
    have survivor := Rtk.region_mergeInto_survivor (c := c) apart inside
    have loser := Rtk.region_mergeInto_loser (c := c) (i := i) inside'
    have parent : (m.region i).parent = i := by
      rw [survivor]
      exact self
    refine ⟨Rtk.root_of_parent apart (by rw [loser]) parent, Rtk.root_of_self parent, by rw [loser], ?_⟩
    rw [survivor]
    obtain ⟨perm, sub, merged⟩ := mergeHoles_spec c.line (k.region i).holes (k.region j).holes
    refine ⟨rfl, rfl, rfl, rfl, fun n notSurvivor notLoser => Rtk.region_mergeInto_other notSurvivor notLoser, rfl,
      rfl, rfl, rfl, rfl, rfl, rfl, rfl, rfl, rfl, rfl, rfl,
      ⟨mergeHoles c.line (k.region i).holes (k.region j).holes, perm, sub, fun _ => merged, rfl, ?_⟩, mergeRings_spec, fun none => ?_,
      fun none => ?_, fun x y mine theirs => ?_⟩
    · exact Region.absorb_holes c.line k.exhaustion (k.region i) (k.region j)
    · show widerAnchor _ _ = _
      rw [none, widerAnchor_none_right]
    · show widerAnchor _ _ = _
      rw [none]
      rfl
    · show widerAnchor _ _ = _
      rw [mine, theirs]
      rfl
  · exact (Rtk.region_pushAnchor inside widest).trans (leaveRing_concat_of_room _ room)
  · have pushed := (Rtk.region_pushAnchor inside widest).trans (leaveRing_concat_of_full _ ring full)
    rwa [if_pos ((anchorTaken_iff c _ a).2 taken)] at pushed
  · have pushed := (Rtk.region_pushAnchor inside widest).trans (leaveRing_concat_of_full _ ring full)
    rwa [if_neg (mt (anchorTaken_iff c _ a).1 other)] at pushed

end Sys2Proof.Machine
end
